-- ==== Sys2Proof/Word.lean ====
section
/-! DEFINITION. The word types of the block (R8, R9). -/

namespace Sys2Proof

/-- A byte of any memory, and one channel of a pixel (R8, R9). -/
abbrev Byte := BitVec 8

/-- A 16-bit operand field of a command (R111). -/
abbrev Word16 := BitVec 16

/-- A host register, a host address or a KMEM word (R8). -/
abbrev Word32 := BitVec 32

/-- A command word (R8, R110). -/
abbrev Word64 := BitVec 64

end Sys2Proof
end

