-- ==== Sys2Proof/Syntax.lean ====
section
/-! DEFINITION. The commands: one constructor per row of spec/opcode_table.json, each with the operands R113 gives it. -/

namespace Sys2Proof

/-- A command of R114. Operands are the integers of R113: `u16` fields as naturals, the `i16` threshold as an integer,
and the `uQ8.8` fields as the raw natural A (the value is A / 256). -/
inductive Instr where
  /-- DECODE (R164). -/
  | decode
  /-- ENCODE (R175). -/
  | encode
  /-- CREATE w, h (R146). -/
  | create (w h : Nat)
  /-- CONV (R203). -/
  | conv
  /-- SHARPEN (R207). -/
  | sharpen
  /-- EDGE t, the threshold in channel units (R209). -/
  | edge (t : Int)
  /-- BLUR s, sigma = s / 256 (R212). -/
  | blur (s : Nat)
  /-- GRAY (R231). -/
  | gray
  /-- NEG (R235). -/
  | neg
  /-- MEDIAN r (R240). -/
  | median (r : Nat)
  /-- GAMMA g, the gamma value is g / 256 (R245). -/
  | gamma (g : Nat)
  /-- HISTEQ (R250). -/
  | histeq
  /-- CROP w, h (R257). -/
  | crop (w h : Nat)
  deriving DecidableEq, Repr

end Sys2Proof
end

