-- ==== Sys2Proof/WellFormed.lean ====
section
/-! DEFINITION. Which commands have an encoding: the operand ranges of R113 and R118. A command word never decodes to an
ill-formed command; "an operand outside its range is an assembly error, not a command" (R118). -/

namespace Sys2Proof

/-- A `u16` or raw `uQ8.8` operand fits its 16-bit field (R113). -/
def inU16 (v : Nat) : Bool := decide (v ≤ 65535)

/-- An `i16` operand fits its 16-bit field (R113). -/
def inI16 (t : Int) : Bool := decide (-32768 ≤ t) && decide (t ≤ 32767)

/-- Every operand lies in the range R118 gives it. -/
def Instr.wellFormed (i : Instr) : Bool :=
  match i with
  | .decode => true
  | .encode => true
  | .create w h => inU16 w && inU16 h
  | .conv => true
  | .sharpen => true
  | .edge t => inI16 t
  | .blur s => inU16 s
  | .gray => true
  | .neg => true
  | .median r => inU16 r
  | .gamma g => inU16 g
  | .histeq => true
  | .crop w h => inU16 w && inU16 h

end Sys2Proof
end

