-- ==== Sys2Proof/Decode.lean ====
section
/-! DEFINITION. The decoder of R117, total on every list of bytes, and after it the encoder of R111-R114. -/

namespace Sys2Proof

/-! ## Bytes and numbers, little-endian (R14) -/

/-- The unsigned number whose bytes are `bs`, the first least significant (R14, `MemRead`). -/
def leNat : List Byte → Nat
  | [] => 0
  | b :: bs => b.toNat + 256 * leNat bs

/-- The `n` low bytes of `v`, least significant first (R14, `MemWrite`). -/
def leBytes : Nat → Nat → List Byte
  | 0, _ => []
  | n + 1, v => BitVec.ofNat 8 v :: leBytes n (v / 256)

/-! ## Decoding -/

/-- Why a word is no command (R116). -/
inductive DecodeError where
  /-- fewer than 8 bytes; every command has exactly 8 (R110) -/
  | tooShort
  /-- RSV0, bits [15:8], is not 0 -/
  | rsv0NotZero
  /-- RSV1, bits [63:48], is not 0 -/
  | rsv1NotZero
  /-- A or B is not 0 and the opcode does not name it -/
  | unusedFieldNotZero
  /-- the opcode is not in the map of R114 -/
  | unassignedOpcode
  deriving DecidableEq, Repr

/-- OPC, bits [7:0] (R111). -/
def opcField (w : Word64) : Byte := w.extractLsb' 0 8

/-- RSV0, bits [15:8] (R111). -/
def rsv0Field (w : Word64) : Byte := w.extractLsb' 8 8

/-- A, bits [31:16] (R111). -/
def aField (w : Word64) : Word16 := w.extractLsb' 16 16

/-- B, bits [47:32] (R111). -/
def bField (w : Word64) : Word16 := w.extractLsb' 32 16

/-- RSV1, bits [63:48] (R111). -/
def rsv1Field (w : Word64) : Word16 := w.extractLsb' 48 16

/-- A command that names neither A nor B: both must be 0 (R113, R116). -/
def noOperands (a b : Word16) (i : Instr) : Except DecodeError Instr :=
  if a = 0 ∧ b = 0 then .ok i else .error .unusedFieldNotZero

/-- A command that names A only: B must be 0 (R113, R116). -/
def operandA (b : Word16) (i : Instr) : Except DecodeError Instr :=
  if b = 0 then .ok i else .error .unusedFieldNotZero

/-- The opcode map of R114, with the operand forms of R113. -/
def decodeFields (opc : Byte) (a b : Word16) : Except DecodeError Instr :=
  match opc.toNat with
  | 0x01 => noOperands a b .decode
  | 0x02 => noOperands a b .encode
  | 0x03 => .ok (.create a.toNat b.toNat)
  | 0x10 => noOperands a b .conv
  | 0x11 => noOperands a b .sharpen
  | 0x12 => operandA b (.edge a.toInt)
  | 0x13 => operandA b (.blur a.toNat)
  | 0x20 => noOperands a b .gray
  | 0x21 => noOperands a b .neg
  | 0x22 => operandA b (.median a.toNat)
  | 0x23 => operandA b (.gamma a.toNat)
  | 0x24 => noOperands a b .histeq
  | 0x25 => .ok (.crop a.toNat b.toNat)
  | _ => .error .unassignedOpcode

/-- `decode` of R117, total on every 64-bit word. -/
def decodeWord (w : Word64) : Except DecodeError Instr :=
  if rsv0Field w ≠ 0 then .error .rsv0NotZero
  else if rsv1Field w ≠ 0 then .error .rsv1NotZero
  else decodeFields (opcField w) (aField w) (bField w)

/-- The word that 8 bytes of CMD_MEM spell (R112), and what it decodes to. Exactly 8 bytes are read (R110). -/
def decodeBytes (bs : List Byte) : Except DecodeError Instr :=
  if bs.length < 8 then .error .tooShort
  else decodeWord (BitVec.ofNat 64 (leNat (bs.take 8)))

/-- The command the decoder reads from the low `nbits` bits of `w`, stored as the 8 bytes of a command slot. -/
def decodeTableWord (nbits w : Nat) : Option Instr :=
  match decodeBytes (leBytes 8 (w % 2 ^ nbits)) with
  | .ok i => some i
  | .error _ => none

/-! ## Encoding -/

/-- Format C64 with both reserved fields 0 (R111). -/
def packC64 (opc : Byte) (a b : Word16) : Word64 :=
  opc.setWidth 64 ||| (a.setWidth 64 <<< 16) ||| (b.setWidth 64 <<< 32)

/-- The command word of a command, from the opcode map of R114 and the operand forms of R113. -/
def encode (i : Instr) : Word64 :=
  match i with
  | .decode => packC64 0x01 0 0
  | .encode => packC64 0x02 0 0
  | .create w h => packC64 0x03 (BitVec.ofNat 16 w) (BitVec.ofNat 16 h)
  | .conv => packC64 0x10 0 0
  | .sharpen => packC64 0x11 0 0
  | .edge t => packC64 0x12 (BitVec.ofInt 16 t) 0
  | .blur s => packC64 0x13 (BitVec.ofNat 16 s) 0
  | .gray => packC64 0x20 0 0
  | .neg => packC64 0x21 0 0
  | .median r => packC64 0x22 (BitVec.ofNat 16 r) 0
  | .gamma g => packC64 0x23 (BitVec.ofNat 16 g) 0
  | .histeq => packC64 0x24 0 0
  | .crop w h => packC64 0x25 (BitVec.ofNat 16 w) (BitVec.ofNat 16 h)

/-- The 8 bytes of a command in CMD_MEM order (R112). -/
def encodeBytes (i : Instr) : List Byte := leBytes 8 (encode i).toNat

/-! ## Match and mask (R115) -/

/-- The mask of a command's row: every bit but those of the operand fields it names (R115). -/
def rowMask (i : Instr) : Word64 :=
  match i with
  | .create _ _ => 0xFFFF00000000FFFF
  | .crop _ _ => 0xFFFF00000000FFFF
  | .edge _ => 0xFFFFFFFF0000FFFF
  | .blur _ => 0xFFFFFFFF0000FFFF
  | .median _ => 0xFFFFFFFF0000FFFF
  | .gamma _ => 0xFFFFFFFF0000FFFF
  | .decode => 0xFFFFFFFFFFFFFFFF
  | .encode => 0xFFFFFFFFFFFFFFFF
  | .conv => 0xFFFFFFFFFFFFFFFF
  | .sharpen => 0xFFFFFFFFFFFFFFFF
  | .gray => 0xFFFFFFFFFFFFFFFF
  | .neg => 0xFFFFFFFFFFFFFFFF
  | .histeq => 0xFFFFFFFFFFFFFFFF

/-- The match value of a command's row: its opcode, all else 0 (R115). -/
def rowMatch (i : Instr) : Word64 :=
  match i with
  | .decode => 0x01
  | .encode => 0x02
  | .create _ _ => 0x03
  | .conv => 0x10
  | .sharpen => 0x11
  | .edge _ => 0x12
  | .blur _ => 0x13
  | .gray => 0x20
  | .neg => 0x21
  | .median _ => 0x22
  | .gamma _ => 0x23
  | .histeq => 0x24
  | .crop _ _ => 0x25

end Sys2Proof
end

