-- ==== Sys2Proof/Config.lean ====
section
/-! DEFINITION. What an implementation fixes (the capacity parameters of R7 and BASE) and the free values: the values
the spec leaves open. A free value is an opaque constant, so nothing can be proved of which value it is. -/

namespace Sys2Proof.Machine

/-- The four byte spaces of the block (R14). -/
inductive Space where
  | kmem
  | cmdMem
  | inMem
  | outMem
  deriving DecidableEq, Repr

/-- The parameters of R7 and BASE (92_eei_decisions.md, open parameters). They stand in State, so that every statement
about all states is about every configuration (log 1). -/
structure Params where
  /-- BASE: where the platform puts the block (R80). -/
  base : Word32
  /-- IN_CAP: bytes of IN_MEM. -/
  inCap : Nat
  /-- OUT_CAP: bytes of OUT_MEM. -/
  outCap : Nat
  /-- CMD_CAP: commands held by CMD_MEM. -/
  cmdCap : Nat
  /-- MAX_W: largest image width. -/
  maxW : Nat
  /-- MAX_H: largest image height. -/
  maxH : Nat
  /-- MAX_PIXELS: largest width times height. -/
  maxPixels : Nat
  /-- KMAX_DIM: largest side of a CONV kernel. -/
  kmaxDim : Nat
  /-- GAUSS_RMAX: largest BLUR radius. -/
  gaussRmax : Nat
  /-- MEDIAN_RMAX: largest MEDIAN radius. -/
  medianRmax : Nat
  deriving DecidableEq, Repr

/-- The legal ranges of R7, and BASE aligned to 64 MiB (92_eei_decisions.md, open parameters). -/
abbrev Params.Legal (p : Params) : Prop :=
  p.base.toNat % 0x4000000 = 0 ∧
  (54 ≤ p.inCap ∧ p.inCap ≤ 2 ^ 24) ∧
  (54 ≤ p.outCap ∧ p.outCap ≤ 2 ^ 24) ∧
  (1 ≤ p.cmdCap ∧ p.cmdCap ≤ 8192) ∧
  (1 ≤ p.maxW ∧ p.maxW ≤ 65535) ∧
  (1 ≤ p.maxH ∧ p.maxH ≤ 65535) ∧
  (1 ≤ p.maxPixels ∧ p.maxPixels ≤ p.maxW * p.maxH) ∧
  (p.kmaxDim % 2 = 1 ∧ 3 ≤ p.kmaxDim ∧ p.kmaxDim ≤ 31) ∧
  (1 ≤ p.gaussRmax ∧ p.gaussRmax ≤ 64) ∧
  (1 ≤ p.medianRmax ∧ p.medianRmax ≤ 15)

/-- The reference configuration REF of R7. DESIGN CHOICE (log 1): BASE, which the spec does not fix, is 0. -/
def Params.ref : Params where
  base := 0
  inCap := 4194304
  outCap := 4194304
  cmdCap := 256
  maxW := 1024
  maxH := 1024
  maxPixels := 1048576
  kmaxDim := 15
  gaussRmax := 32
  medianRmax := 7

/-- Free value (R342, R344, U2, U3; log 9, log 10): what the byte at `addr` of `space` holds when nothing has written
it since draw number `draw` filled the space. -/
opaque Config.drawnByte (space : Space) (draw addr : Nat) : Byte

/-- Free value (R88, U1; log 11): what the read with draw number `draw` returns where the spec says "unspecified
value". -/
opaque Config.unspecifiedWord (draw : Nat) : Word32

end Sys2Proof.Machine
end

