-- ==== Sys2Proof/Machine/State.lean ====
section
/-! DEFINITION. The state of the block: plain data, holding everything the spec gives the machine (R30, R34, R55-R58),
the model's own fields, the reasons a step can stop, and the state after reset (R341). -/

namespace Sys2Proof.Machine

/-! ## Images (R15, R32) -/

/-- A pixel: three 8-bit channels (R15). -/
structure Pixel where
  r : Byte
  g : Byte
  b : Byte
  deriving DecidableEq, Repr

/-- An image of `w` by `h` pixels; `rows` holds row y at index y and in it pixel x at index x, so (0, 0) is the top-left
(R15). The storage order is internal to the block (R33). -/
structure Image where
  w : Nat
  h : Nat
  rows : List (List Pixel)
  deriving DecidableEq, Repr

/-! ## Memories (R51-R54) -/

/-- One byte space: the bytes written so far, addresses strictly rising. A byte that is not listed has not been written
since the space was filled by draw number `draw`; such a byte is a free value (R342; log 9). -/
structure Memory where
  cells : List Host.Cell
  draw : Nat
  deriving DecidableEq, Repr

/-! ## Errors (R301) -/

/-- The error kinds that end a run (R301). IndexError never does; it is STATUS.IDX_ERR (R309). -/
inductive ErrKind where
  | formatError
  | unsupportedFormat
  | truncatedFileError
  | invalidDimensions
  | invalidParameter
  | illegalCommand
  | capacityExceeded
  deriving DecidableEq, Repr

/-- PHASE (R58). -/
inductive Phase where
  | idle
  | validate
  | execute
  deriving DecidableEq, Repr

/-! ## The host port (R80-R88) -/

/-- The 22 host-visible registers of R34. -/
inductive Reg where
  | ctrl | status | errCode | errCmd | cp | cmdLen | inLen | outLen
  | imgWidth | imgHeight | pixX | pixY | pixData | irqEn | irqPend | kcfg
  | capIn | capOut | capCmd | capDim | capPixels | capK
  deriving DecidableEq, Repr

/-- The width of a host access (R85). -/
inductive Width where
  | w8
  | w16
  | w32
  deriving DecidableEq, Repr

/-- One host transaction: a read or a write of a host address (R20, R80). -/
inductive HostReq where
  | read (addr : Word32) (width : Width)
  | write (addr : Word32) (width : Width) (data : Word32)
  deriving DecidableEq, Repr

/-- What a transaction answers: the read data (0 for a write) and whether it completed with SLVERR (R84, R85). -/
structure BusResponse where
  data : Word32
  slverr : Bool
  deriving DecidableEq, Repr

/-- What happens next at the block's boundary (R20, R49, R340, R320; log 6, log 8). -/
inductive Event where
  /-- the engine moves -/
  | engine
  /-- the host issues a transaction -/
  | host (req : HostReq)
  /-- a transaction and an engine move take effect at the same moment (R49, R313) -/
  | both (req : HostReq)
  /-- hardware reset with power held (R340) -/
  | hardwareReset
  /-- power is lost and returns: hardware reset with unspecified memories (R320, R342) -/
  | powerOn
  deriving DecidableEq, Repr

/-! ## The state (R30) -/

/-- The whole state of the block. BUSY, IMG_VALID, IMG_WIDTH, IMG_HEIGHT, the CAP registers and irq are read off the
fields below (Machine/Flags.lean). -/
structure State where
  /-- the capacity parameters (R7); no step changes them -/
  params : Params
  /-- CMD_LEN (R40) -/
  cmdLen : Word32
  /-- IN_LEN (R41) -/
  inLen : Word32
  /-- OUT_LEN (R42) -/
  outLen : Word32
  /-- PIX_X (R45) -/
  pixX : Word32
  /-- PIX_Y (R46) -/
  pixY : Word32
  /-- IRQ_EN.DONE_IE (R48) -/
  doneIe : Bool
  /-- IRQ_EN.ERR_IE (R48) -/
  errIe : Bool
  /-- IRQ_PEND.DONE_IP (R49) -/
  doneIp : Bool
  /-- IRQ_PEND.ERR_IP (R49) -/
  errIp : Bool
  /-- KCFG.KW (R50) -/
  kw : Byte
  /-- KCFG.KH (R50) -/
  kh : Byte
  /-- STATUS.DONE (R37) -/
  done : Bool
  /-- STATUS.ERR (R37) -/
  err : Bool
  /-- STATUS.OUT_VALID (R37) -/
  outValid : Bool
  /-- STATUS.IDX_ERR (R37, R149) -/
  idxErr : Bool
  /-- ERR_CODE.CODE (R38) -/
  errCode : Byte
  /-- ERR_CMD (R39) -/
  errCmd : Word32
  /-- CP, the command pointer (R36) -/
  cp : Word32
  /-- PHASE (R58) -/
  phase : Phase
  /-- IMG (R32) -/
  img : Option Image
  /-- KMEM (R51), as bytes -/
  kmem : Memory
  /-- CMD_MEM (R52) -/
  cmdMem : Memory
  /-- IN_MEM (R53) -/
  inMem : Memory
  /-- OUT_MEM (R54) -/
  outMem : Memory
  /-- GAMMA_LUT, 256 entries (R55) -/
  gammaLut : List Byte
  /-- HIST, 256 entries (R56) -/
  hist : List Word32
  /-- CDF, 256 entries (R56) -/
  cdf : List Word32
  /-- HEQ_LUT, 256 entries (R56) -/
  heqLut : List Byte
  /-- GW, the 65 Gaussian weights W_0..W_64 (R57) -/
  gw : List Word32
  /-- the model's own: how many free values have been drawn (log 9, log 11) -/
  draws : Nat
  /-- the model's own: what the host and the platform do next (log 6) -/
  events : List Event
  /-- the model's own: the bus responses given, newest first (log 6) -/
  responses : List BusResponse
  deriving DecidableEq, Repr

/-- Why the machine stops. No state that satisfies `Safe` (Safety.lean) faults. -/
inductive Fault where
  /-- The engine was to read command slot `index`, which lies outside CMD_MEM: R14 and R91 say it never does. Raised by
  the fetch alone, only in states no run reaches. Safe: the model stops. -/
  | engineOutsideCmdMem (index : Nat)
  deriving DecidableEq, Repr

/-- Why an instruction is refused. -/
inductive Refusal where
  /-- The instruction has no meaning in this model. Raised by exec's refused arms, of which there are none. Safe. -/
  | notModelled (mnemonic : String)
  deriving DecidableEq, Repr

/-- A byte space that nothing has written since draw `draw` (R342). -/
def Memory.fresh (draw : Nat) : Memory := { cells := [], draw := draw }

/-- The state after a power-on reset (R341, R342), for the REF parameters (log 1). The hidden tables, which R341 calls
unspecified and never observable, are all 0: DESIGN CHOICE (log 12). -/
def State.reset : State where
  params := Params.ref
  cmdLen := 0
  inLen := 0
  outLen := 0
  pixX := 0
  pixY := 0
  doneIe := false
  errIe := false
  doneIp := false
  errIp := false
  kw := 0
  kh := 0
  done := false
  err := false
  outValid := false
  idxErr := false
  errCode := 0
  errCmd := 0
  cp := 0
  phase := .idle
  img := none
  kmem := Memory.fresh 0
  cmdMem := Memory.fresh 0
  inMem := Memory.fresh 0
  outMem := Memory.fresh 0
  gammaLut := List.replicate 256 0
  hist := List.replicate 256 0
  cdf := List.replicate 256 0
  heqLut := List.replicate 256 0
  gw := List.replicate 65 0
  draws := 1
  events := []
  responses := []

end Sys2Proof.Machine
end

