-- ==== Sys2Proof/Machine/Flags.lean ====
section
/-! DEFINITION. What is read off State: BUSY, the STATUS word and the other register words (R34-R50), and irq (R311). -/

namespace Sys2Proof.Machine

/-- STATUS.BUSY: PHASE is not IDLE (R58). -/
def State.busy (s : State) : Bool := s.phase != .idle

/-- STATUS.IMG_VALID: an image is held (R32, R37). -/
def State.imgValid (s : State) : Bool := s.img.isSome

/-- IMG_WIDTH: the width of the image, 0 if none is held (R43). -/
def State.imgWidth (s : State) : Nat :=
  match s.img with
  | some I => I.w
  | none => 0

/-- IMG_HEIGHT: the height of the image, 0 if none is held (R44). -/
def State.imgHeight (s : State) : Nat :=
  match s.img with
  | some I => I.h
  | none => 0

/-- The STATUS word with the given IMG_VALID and OUT_VALID bits (R34). -/
def State.statusWith (s : State) (imgValid outValid : Bool) : Word32 :=
  BitVec.ofNat 32
    (s.busy.toNat + 2 * s.done.toNat + 4 * s.err.toNat + 8 * imgValid.toNat + 16 * outValid.toNat +
      32 * s.idxErr.toNat)

/-- STATUS as it reads while idle (R37). -/
def State.statusWord (s : State) : Word32 := s.statusWith s.imgValid s.outValid

/-- STATUS as it reads while busy: IMG_VALID and OUT_VALID are bits of the free value `free` (R88). -/
def State.statusBusy (s : State) (free : Word32) : Word32 := s.statusWith (free.getLsbD 3) (free.getLsbD 4)

/-- Two bits as a register word. -/
def bitPair (b0 b1 : Bool) : Word32 := BitVec.ofNat 32 (b0.toNat + 2 * b1.toNat)

/-- IRQ_EN (R48). -/
def State.irqEnWord (s : State) : Word32 := bitPair s.doneIe s.errIe

/-- IRQ_PEND (R49). -/
def State.irqPendWord (s : State) : Word32 := bitPair s.doneIp s.errIp

/-- KCFG (R50). -/
def State.kcfgWord (s : State) : Word32 := BitVec.ofNat 32 (s.kw.toNat + 256 * s.kh.toNat)

/-- CAP_DIM (R34). -/
def Params.dimWord (p : Params) : Word32 := BitVec.ofNat 32 (p.maxW + 65536 * p.maxH)

/-- CAP_K (R34). -/
def Params.kWord (p : Params) : Word32 :=
  BitVec.ofNat 32 (p.kmaxDim + 256 * p.gaussRmax + 65536 * p.medianRmax)

/-- The pixel as PIX_DATA packs it: 8 zero bits, R, G, B (R47). -/
def Pixel.word (p : Pixel) : Word32 := 0#8 ++ p.r ++ p.g ++ p.b

/-- The pixel a PIX_DATA write names; bits [31:24] are ignored (R47, R148). -/
def Pixel.ofWord (d : Word32) : Pixel where
  r := d.extractLsb' 16 8
  g := d.extractLsb' 8 8
  b := d.extractLsb' 0 8

/-- The interrupt output, a level (R311). -/
def State.irq (s : State) : Bool := (s.doneIe && s.doneIp) || (s.errIe && s.errIp)

end Sys2Proof.Machine
end

