-- ==== Sys2Proof/Machine/Operands.lean ====
section
/-! DEFINITION. The arithmetic the commands compute with: clamping, rounding, signed readings of operand fields (R10-R12),
the row geometry of a BMP (R162), the radius and the weights of BLUR (R213, R214) and the GAMMA table (R247). All of it is
exact integer arithmetic (R10, D43). -/

namespace Sys2Proof.Machine

/-- `clamp(v, lo, hi)` (R11). -/
def clamp (v lo hi : Int) : Int := min hi (max lo v)

/-- `clamp8`, as a channel value (R11). -/
def clamp8 (v : Int) : Byte := BitVec.ofInt 8 (clamp v 0 255)

/-- `ceil_div(a, b)` (R11). -/
def ceilDiv (a b : Nat) : Nat := (a + b - 1) / b

/-- `rhu(a / b)`, round half up, for b > 0 (R12). -/
def rhu (a b : Int) : Int := (2 * a + b) / (2 * b)

/-- `as_i32` of a 32-bit number (R10). -/
def asI32 (v : Nat) : Int := (BitVec.ofNat 32 v).toInt

/-- The bytes one stored row occupies (R162). -/
def rowBytes (w : Nat) : Nat := ceilDiv (3 * w) 4 * 4

/-- The padding bytes of a stored row (R162). -/
def padBytes (w : Nat) : Nat := rowBytes w - 3 * w

/-- The radius of BLUR (R213). -/
def gaussRadius (s : Nat) : Nat := max 1 (ceilDiv (3 * s) 256)

/-! ## The Gaussian weights (R214)

The weights are 65536 e_i / Z rounded, with e_i = exp(-32768 i² / s²). The model computes each e_i as an integer over
2^128. DEDUCED (log 14): for every s with radius at most 64 the rounding below is the one of the real quotient. -/

/-- The unit of the fixed-point numbers below, 2^128. -/
def gaussUnit : Nat := 0x100000000000000000000000000000000

/-- `n` terms of the alternating series of exp(-1/d), nested, over `gaussUnit`; `acc` holds the tail. -/
def expSeries (d : Nat) : Nat → Nat → Nat
  | 0, acc => acc
  | n + 1, acc => expSeries d n (gaussUnit - acc / (d * (n + 1)))

/-- The product of two fixed-point numbers. -/
def gaussMul (a b : Nat) : Nat := a * b / gaussUnit

/-- `n` squarings. -/
def gaussSquare : Nat → Nat → Nat
  | 0, a => a
  | n + 1, a => gaussSquare n (gaussMul a a)

/-- q = exp(-32768 / s²): 16 squarings of exp(-1 / (2 s²)). -/
def gaussBase (s : Nat) : Nat := gaussSquare 16 (expSeries (2 * s * s) 24 gaussUnit)

/-- From e = e_i and t = q^(2i+1), the next `n` values e_(i+1), e_(i+2), ... -/
def gaussChain (qq : Nat) : Nat → Nat → Nat → List Nat
  | 0, _, _ => []
  | n + 1, e, t => gaussMul e t :: gaussChain qq n (gaussMul e t) (gaussMul t qq)

/-- e_1, ..., e_r over `gaussUnit`, for the radius r of `s` (R213, R214). -/
def gaussExps (s : Nat) : List Nat :=
  gaussChain (gaussMul (gaussBase s) (gaussBase s)) (gaussRadius s) gaussUnit (gaussBase s)

/-- Z over `gaussUnit` (R214). -/
def gaussSum (s : Nat) : Nat := gaussUnit + 2 * (gaussExps s).sum

/-- W_1, ..., W_r (R214). -/
def gaussSides (s : Nat) : List Nat :=
  (gaussExps s).map fun e => (2 * (65536 * e) + gaussSum s) / (2 * gaussSum s)

/-- W_0, ..., W_r: the centre absorbs the residue (R214). -/
def gaussWeights (s : Nat) : List Nat :=
  (65536 - 2 * (gaussSides s).sum) :: gaussSides s

/-! ## The GAMMA table (R247) -/

/-- Whether v ≤ 255·(c/255)^(256/g) + 1/2, for v ≥ 1 and g ≥ 1. Both sides of the equivalent
(2v - 1)/510 ≤ (c/255)^(256/g), raised to the power g, are integers over common denominators (log 15). -/
def gammaReaches (g c v : Nat) : Bool :=
  decide ((2 * v - 1) ^ g * 255 ^ 256 ≤ c ^ 256 * 510 ^ g)

/-- The largest v of 0..255 that `gammaReaches`, found bit by bit from `bits`. -/
def gammaSearch (g c : Nat) : List Nat → Nat → Nat
  | [], v => v
  | b :: bits, v => gammaSearch g c bits (if gammaReaches g c (v + b) then v + b else v)

/-- `GAMMA_LUT[c] = clamp8(rhu(255·(c/255)^(256/g)))` (R247). -/
def gammaEntry (g c : Nat) : Byte :=
  BitVec.ofNat 8 (gammaSearch g c [128, 64, 32, 16, 8, 4, 2, 1] 0)

end Sys2Proof.Machine
end

