-- ==== Sys2Proof/Machine/Ops.lean ====
section
/-! DEFINITION. The shared operations: byte spaces (R14), images (R15, R16, R140, R141), the start and the two ends of a
run (R275, R276, R306), reset (R340-R344), the fetch (R112) and the frame every command's meaning stands in (R271, R273). -/

namespace Sys2Proof.Machine

/-! ## One byte space (R14) -/

/-- The canonical form: addresses strictly rising, so each at most once. What an unlisted address holds is no listed
value (log 9), so equal contents are equal lists. -/
abbrev Memory.wf (m : Memory) : Prop := m.cells.Pairwise fun c d => c.1 < d.1

/-- Every listed address lies below `size`. -/
abbrev Memory.within (m : Memory) (size : Nat) : Prop := ∀ c ∈ m.cells, c.1 < size

/-- What address `a` of `space` holds: the byte written there, else the free value of its draw (R342, U2). -/
def Memory.read (space : Space) (m : Memory) (a : Nat) : Byte :=
  match m.cells.lookup a with
  | some b => b
  | none => Config.drawnByte space m.draw a

/-- The cells of the bytes `bs` from address `a` on. -/
def cellsFrom : Nat → List Byte → List Host.Cell
  | _, [] => []
  | a, b :: bs => (a, b) :: cellsFrom (a + 1) bs

/-- `MemWrite` of the bytes `bs` at `a`, `a` + 1, ... (R14), all at once (R89). -/
def Memory.write (m : Memory) (a : Nat) (bs : List Byte) : Memory :=
  { m with
    cells :=
      (m.cells.filter fun c => c.1 < a) ++ cellsFrom a bs ++ m.cells.filter fun c => a + bs.length ≤ c.1 }

/-- The byte space of a name (R14). -/
def State.mem (s : State) (space : Space) : Memory :=
  match space with
  | .kmem => s.kmem
  | .cmdMem => s.cmdMem
  | .inMem => s.inMem
  | .outMem => s.outMem

/-- The implemented bytes of a byte space (R80). -/
def Params.sizeOf (p : Params) (space : Space) : Nat :=
  match space with
  | .kmem => 4 * (p.kmaxDim * p.kmaxDim)
  | .cmdMem => 8 * p.cmdCap
  | .inMem => p.inCap
  | .outMem => p.outCap

/-- The state with one byte space replaced. -/
def State.withMem (s : State) (space : Space) (m : Memory) : State :=
  match space with
  | .kmem => { s with kmem := m }
  | .cmdMem => { s with cmdMem := m }
  | .inMem => { s with inMem := m }
  | .outMem => { s with outMem := m }

/-- `Byte(S, a)` (R14). -/
def State.readByte (s : State) (space : Space) (a : Nat) : Byte := (s.mem space).read space a

/-- The `n` bytes from `a` on that `rd` gives, as one little-endian number (R14). -/
def readLE (rd : Nat → Byte) (a n : Nat) : Nat := leNat ((List.range n).map fun k => rd (a + k))

/-- `MemRead(S, a, n)` (R14). -/
def State.memRead (s : State) (space : Space) (a n : Nat) : Nat := readLE (s.readByte space) a n

/-! ## Images -/

/-- The black pixel. -/
def Pixel.black : Pixel := { r := 0, g := 0, b := 0 }

/-- The pure white pixel (R210). -/
def Pixel.white : Pixel := { r := 255, g := 255, b := 255 }

/-- A pixel whose three channels are `v`. -/
def Pixel.grayOf (v : Byte) : Pixel := { r := v, g := v, b := v }

/-- `I.px(x, y)` (R15). Only in-range coordinates are ever asked for. -/
def Image.px (I : Image) (x y : Nat) : Pixel := (I.rows.getD y []).getD x Pixel.black

/-- `new_image(w, h, f)` (R15). -/
def newImage (w h : Nat) (f : Nat → Nat → Pixel) : Image where
  w := w
  h := h
  rows := (List.range h).map fun y => (List.range w).map fun x => f x y

/-- `getc(I, x, y)`, clamped access: each coordinate on its own (R16). -/
def Image.getc (I : Image) (x y : Int) : Pixel :=
  I.px (clamp x 0 (I.w - 1)).toNat (clamp y 0 (I.h - 1)).toNat

/-- `get(I, x, y)`, bounds-checked; none is IndexError (R140). -/
def Image.get? (I : Image) (x y : Nat) : Option Pixel :=
  if x < I.w ∧ y < I.h then some (I.px x y) else none

/-- `set(I, x, y, p)`, bounds-checked; none is IndexError (R141). -/
def Image.set? (I : Image) (x y : Nat) (p : Pixel) : Option Image :=
  if x < I.w ∧ y < I.h then
    some { I with rows := I.rows.set y ((I.rows.getD y []).set x p) }
  else none

/-- The pixels of an image, row by row from the top. -/
def Image.pixels (I : Image) : List Pixel :=
  (List.range I.h).flatMap fun y => (List.range I.w).map fun x => I.px x y

/-- A grid of the stated size, at least 1 by 1 (R15). -/
abbrev Image.wf (I : Image) : Prop :=
  1 ≤ I.w ∧ 1 ≤ I.h ∧ I.rows.length = I.h ∧ ∀ row ∈ I.rows, row.length = I.w

/-- Whether a width and a height are within the capacities (R32; R146, R166 step 12). -/
def Params.holds (p : Params) (w h : Nat) : Bool :=
  decide (w ≤ p.maxW) && decide (h ≤ p.maxH) && decide (w * h ≤ p.maxPixels)

/-! ## Errors and the ends of a run -/

/-- The code of an error kind (R301). -/
def ErrKind.code (e : ErrKind) : Byte :=
  match e with
  | .formatError => 1
  | .unsupportedFormat => 2
  | .truncatedFileError => 3
  | .invalidDimensions => 4
  | .invalidParameter => 5
  | .illegalCommand => 7
  | .capacityExceeded => 8

/-- ERR_CMD of an error that no command raised (R39, R277). -/
def noCommand : Word32 := 0xFFFFFFFF

/-- The end of a run with error `e` at index `k` (R306). This is the block's one exception entry: nothing is saved for a
return, and there is none (R308). -/
def State.endWithError (s : State) (e : ErrKind) (k : Word32) : State :=
  { s with
    errCode := e.code
    errCmd := k
    cp := if k = noCommand then 0 else k
    img := none
    outValid := false
    outLen := 0
    err := true
    errIp := true
    phase := .idle }

/-- The end of a run with success (R275). -/
def State.endWithSuccess (s : State) : State :=
  { s with
    cp := s.cmdLen
    done := true
    doneIp := true
    phase := .idle }

/-- The end of validation: PHASE becomes EXECUTE and CP restarts at 0 (R271, R274). -/
def State.beginExecution (s : State) : State :=
  { s with
    phase := .execute
    cp := 0 }

/-- START accepted (R276). -/
def State.start (s : State) : State :=
  { s with
    done := false
    err := false
    outValid := false
    errCode := 0
    errCmd := 0
    outLen := 0
    cp := 0
    phase := .validate }

/-- CP goes from k to k + 1 when command k has finished without raising (R274). -/
def State.advance (s : State) : State := { s with cp := s.cp + 1 }

/-! ## The frame of a command's meaning -/

/-- What one command does when the engine reaches it. In VALIDATE only its static check is made (R271, R272). In EXECUTE
it is executed (R273); the static check, which validation has already made, stands before it, so that a command placed
directly into EXECUTE is never run on operands it would reject (log 4). A command that raises ends the run with its index
(R306); one that does not moves CP on (R274). PHASE = IDLE is never asked (log 5). -/
def State.command (s : State) (check : Option ErrKind) (body : Except ErrKind State) :
    Host.Outcome State Fault Refusal :=
  match check with
  | some e => .next (s.endWithError e s.cp)
  | none =>
    if s.phase = .validate then .next s.advance
    else
      match body with
      | .error e => .next (s.endWithError e s.cp)
      | .ok t => .next t.advance

/-- A command that reads the image: InvalidDimensions when none is held (R281). -/
def State.withImage (s : State) (f : Image → Except ErrKind State) : Except ErrKind State :=
  match s.img with
  | none => .error .invalidDimensions
  | some I => f I

/-- A command that computes a new image from the image held, and writes nothing else (R142). -/
def State.mapImage (s : State) (f : Image → Image) : Except ErrKind State :=
  s.withImage fun I => .ok { s with img := some (f I) }

/-! ## The fetch (R112) -/

/-- Whether command slot `k` lies in CMD_MEM. -/
def State.slotExists (s : State) (k : Nat) : Bool := decide (k < s.params.cmdCap)

/-- The 8 bytes of command slot `k` (R112). -/
def State.slotBytes (s : State) (k : Nat) : List Byte :=
  (List.range 8).map fun j => s.readByte .cmdMem (8 * k + j)

/-- The command in slot `k`, or why it is none (R112, R117). -/
def State.slotCommand (s : State) (k : Nat) : Except DecodeError Instr := decodeBytes (s.slotBytes k)

/-! ## Reset (R340-R344) -/

/-- Whether the command list of the run contains an ENCODE (R344). -/
def State.listHasEncode (s : State) : Bool :=
  (List.range (min s.cmdLen.toNat s.params.cmdCap)).any fun k =>
    match s.slotCommand k with
    | .ok i => i == .encode
    | .error _ => false

/-- Every register, IMG and PHASE at the value of R341; the memories and the hidden tables are kept. -/
def State.resetRegisters (s : State) : State :=
  { s with
    cmdLen := 0
    inLen := 0
    outLen := 0
    pixX := 0
    pixY := 0
    doneIe := false
    errIe := false
    doneIp := false
    errIp := false
    kw := 0
    kh := 0
    done := false
    err := false
    outValid := false
    idxErr := false
    errCode := 0
    errCmd := 0
    cp := 0
    phase := .idle
    img := none }

/-- OUT_MEM with every byte a fresh free value (R344, U3). -/
def State.loseOutMem (s : State) : State :=
  { s with
    outMem := Memory.fresh s.draws
    draws := s.draws + 1 }

/-- A soft reset (R343), and a hardware reset with power held, which is the same (R342, R344): the memories are kept, but
for OUT_MEM when the reset abandons a run that contains an ENCODE (R344; log 10). -/
def State.softReset (s : State) : State :=
  if s.busy && s.listHasEncode then s.loseOutMem.resetRegisters else s.resetRegisters

/-- A power-on: a hardware reset after which every memory byte is unspecified (R320, R342, U2). -/
def State.powerOn (s : State) : State :=
  { s.resetRegisters with
    kmem := Memory.fresh s.draws
    cmdMem := Memory.fresh s.draws
    inMem := Memory.fresh s.draws
    outMem := Memory.fresh s.draws
    draws := s.draws + 1 }

end Sys2Proof.Machine
end

