-- ==== Sys2Proof/Machine/Buffer.lean ====
section
/-! DEFINITION. CREATE, buffer construction (R146). -/

namespace Sys2Proof.Machine

/-- Static checks of CREATE, in order (R146, R272). -/
def checkCreate (w h : Nat) (s : State) : Option ErrKind :=
  if w = 0 ∨ h = 0 then some .invalidDimensions
  else if s.params.holds w h then none
  else some .capacityExceeded

/-- Execution of CREATE: a black image replaces whatever is held (R146). -/
def bodyCreate (w h : Nat) (s : State) : Except ErrKind State :=
  .ok { s with img := some (newImage w h fun _ _ => Pixel.black) }

/-- CREATE w, h (R146). -/
def execCreate (w h : Nat) (s : State) : Host.Outcome State Fault Refusal :=
  s.command (checkCreate w h s) (bodyCreate w h s)

end Sys2Proof.Machine
end

