-- ==== Sys2Proof/Machine/Codec.lean ====
section
/-! DEFINITION. The BMP codec: DECODE (R160-R174) and ENCODE (R175-R183). -/

namespace Sys2Proof.Machine

/-! ## DECODE -/

/-- The pixel at (x, y) of a stream whose pixel data begins at `off`, with rows of `rb` bytes, `h` of them, bottom-up
when `bottomUp` (R163, R166). -/
def bmpPixel (rd : Nat → Byte) (off rb h : Nat) (bottomUp : Bool) (x y : Nat) : Pixel :=
  let a := off + (if bottomUp then h - 1 - y else y) * rb + 3 * x
  { r := rd (a + 2), g := rd (a + 1), b := rd a }

/-- Steps 12 and 13 of R166, for a width `w`, a height field `hgt` and a data offset `off`. -/
def parsePixels (p : Params) (n : Nat) (rd : Nat → Byte) (off w : Nat) (hgt : Int) : Except ErrKind Image :=
  let h := hgt.natAbs
  let rb := rowBytes w
  if ¬ p.holds w h then .error .capacityExceeded
  else if off + (h - 1) * rb + 3 * w > n then .error .truncatedFileError
  else .ok (newImage w h (bmpPixel rd off rb h (decide (0 < hgt))))

/-- Steps 7 to 11 of R166, the fields of the info header. -/
def parseInfoHeader (p : Params) (n : Nat) (rd : Nat → Byte) : Except ErrKind Image :=
  let width := asI32 (readLE rd 18 4)
  let hgt := asI32 (readLE rd 22 4)
  if width ≤ 0 then .error .invalidDimensions
  else if hgt = 0 then .error .invalidDimensions
  else if readLE rd 26 2 ≠ 1 then .error .unsupportedFormat
  else if readLE rd 28 2 ≠ 24 then .error .unsupportedFormat
  else if readLE rd 30 4 ≠ 0 then .error .unsupportedFormat
  else parsePixels p n rd (readLE rd 10 4) width.toNat hgt

/-- The image that the stream `rd 0`, ..., `rd (n - 1)` spells, or the error of the first failing step of R166, in step
order (R167). Bytes at index `n` and above are never asked for (R165). -/
def parseBmp (p : Params) (n : Nat) (rd : Nat → Byte) : Except ErrKind Image :=
  if n > p.inCap then .error .capacityExceeded
  else if n < 14 then .error .truncatedFileError
  else if rd 0 ≠ 0x42 ∨ rd 1 ≠ 0x4D then .error .formatError
  else if n < 18 then .error .truncatedFileError
  else if readLE rd 14 4 < 40 then .error .formatError
  else if n < 54 then .error .truncatedFileError
  else parseInfoHeader p n rd

/-- Execution of DECODE (R166): IMG becomes the decoded image and nothing else changes (R173). -/
def bodyDecode (s : State) : Except ErrKind State :=
  match parseBmp s.params s.inLen.toNat (s.readByte .inMem) with
  | .error e => .error e
  | .ok I => .ok { s with img := some I }

/-- DECODE (R164-R174). It has no static check. -/
def execDecode (s : State) : Host.Outcome State Fault Refusal := s.command none (bodyDecode s)

/-! ## ENCODE -/

/-- The size of the file ENCODE writes (R176). -/
def bmpSize (w h : Nat) : Nat := 54 + rowBytes w * h

/-- The 54 header bytes (R160, R161, R177). -/
def bmpHeader (w h : Nat) : List Byte :=
  [0x42, 0x4D] ++ leBytes 4 (bmpSize w h) ++ leBytes 2 0 ++ leBytes 2 0 ++ leBytes 4 54 ++
    leBytes 4 40 ++ leBytes 4 w ++ leBytes 4 h ++ leBytes 2 1 ++ leBytes 2 24 ++
    leBytes 4 0 ++ leBytes 4 (rowBytes w * h) ++ leBytes 4 0 ++ leBytes 4 0 ++ leBytes 4 0 ++ leBytes 4 0

/-- The bytes of one stored row: blue, green, red of each pixel, then zero padding (R178). -/
def bmpRow (I : Image) (y : Nat) : List Byte :=
  ((List.range I.w).flatMap fun x => [(I.px x y).b, (I.px x y).g, (I.px x y).r]) ++
    List.replicate (padBytes I.w) 0

/-- The whole file: the header, then the rows bottom-up (R177, R178). -/
def bmpBytes (I : Image) : List Byte :=
  bmpHeader I.w I.h ++ (List.range I.h).flatMap fun k => bmpRow I (I.h - 1 - k)

/-- Execution of ENCODE: the checks of R176 come before the first write (R179); then OUT_MEM bytes 0..size-1, OUT_LEN and
OUT_VALID (R180), and nothing else (R181). -/
def bodyEncode (s : State) : Except ErrKind State :=
  s.withImage fun I =>
    if bmpSize I.w I.h > s.params.outCap then .error .capacityExceeded
    else
      .ok { s with
        outMem := s.outMem.write 0 (bmpBytes I)
        outLen := BitVec.ofNat 32 (bmpSize I.w I.h)
        outValid := true }

/-- ENCODE (R175-R183). It has no static check. -/
def execEncode (s : State) : Host.Outcome State Fault Refusal := s.command none (bodyEncode s)

end Sys2Proof.Machine
end

