-- ==== Sys2Proof/Machine/Convolution.lean ====
section
/-! DEFINITION. The convolution engine (R200-R202) and the commands CONV, SHARPEN, EDGE and BLUR. The luma of R232 stands
here because EDGE grays its source with it (R210). -/

namespace Sys2Proof.Machine

/-! ## The engine -/

/-- The sum of R201 for one channel `c` of the output pixel (x, y): exact, over a `kh` by `kw` kernel of Q16.16 weights
`K j i` (R200, R202). -/
def convSum (S : Image) (kh kw : Nat) (K : Nat → Nat → Int) (c : Pixel → Byte) (x y : Nat) : Int :=
  ((List.range kh).map fun j =>
    ((List.range kw).map fun i =>
      K j i * ((c (S.getc (x + i - (kw / 2 : Nat)) (y + j - (kh / 2 : Nat)))).toNat : Int)).sum).sum

/-- The rounding of a Q16.16 sum to a channel (R201). -/
def roundQ16 (acc : Int) : Byte := clamp8 ((acc + 32768) / 65536)

/-- `conv(S, K)` (R201). -/
def conv (S : Image) (kh kw : Nat) (K : Nat → Nat → Int) : Image :=
  newImage S.w S.h fun x y =>
    { r := roundQ16 (convSum S kh kw K Pixel.r x y)
      g := roundQ16 (convSum S kh kw K Pixel.g x y)
      b := roundQ16 (convSum S kh kw K Pixel.b x y) }

/-! ## CONV -/

/-- The weight K[j][i] of a kernel of width `kw` in KMEM (R51, R203). -/
def State.kernelWeight (s : State) (kw j i : Nat) : Int := asI32 (s.memRead .kmem (4 * (j * kw + i)) 4)

/-- Static checks of CONV, in order (R203, R272). -/
def checkConv (s : State) : Option ErrKind :=
  if s.kw.toNat % 2 = 0 ∨ s.kh.toNat % 2 = 0 then some .invalidParameter
  else if s.kw.toNat > s.params.kmaxDim ∨ s.kh.toNat > s.params.kmaxDim then some .capacityExceeded
  else none

/-- Execution of CONV (R204). -/
def bodyConv (s : State) : Except ErrKind State :=
  s.mapImage fun I => conv I s.kh.toNat s.kw.toNat (s.kernelWeight s.kw.toNat)

/-- CONV (R203-R205). -/
def execConv (s : State) : Host.Outcome State Fault Refusal := s.command (checkConv s) (bodyConv s)

/-! ## SHARPEN -/

/-- A 3 by 3 kernel with `centre` in the middle, -1 beside it and 0 in the corners, in Q16.16 (R206, R208). -/
def crossKernel (centre : Int) (j i : Nat) : Int :=
  if j = 1 ∧ i = 1 then centre * 65536 else if j = 1 ∨ i = 1 then -65536 else 0

/-- K_SHARPEN (R206). -/
def sharpenKernel (j i : Nat) : Int := crossKernel 5 j i

/-- Execution of SHARPEN (R207). -/
def bodySharpen (s : State) : Except ErrKind State := s.mapImage fun I => conv I 3 3 sharpenKernel

/-- SHARPEN (R206, R207). It has no static check. -/
def execSharpen (s : State) : Host.Outcome State Fault Refusal := s.command none (bodySharpen s)

/-! ## Luma, and EDGE -/

/-- `luma(p)` (R232). -/
def luma (p : Pixel) : Nat := (299 * p.r.toNat + 587 * p.g.toNat + 114 * p.b.toNat + 500) / 1000

/-- `gray(S)`: the rounded luma in all three channels (R233). -/
def grayImage (S : Image) : Image :=
  newImage S.w S.h fun x y => Pixel.grayOf (BitVec.ofNat 8 (luma (S.px x y)))

/-- K_LAP (R208). -/
def laplaceKernel (j i : Nat) : Int := crossKernel 4 j i

/-- Pure white where the luma exceeds the threshold, else pure black (R210). -/
def binarize (t : Int) (L : Image) : Image :=
  newImage L.w L.h fun x y => if t < (luma (L.px x y) : Int) then Pixel.white else Pixel.black

/-- Execution of EDGE (R210). -/
def bodyEdge (t : Int) (s : State) : Except ErrKind State :=
  s.mapImage fun I => binarize t (conv (grayImage I) 3 3 laplaceKernel)

/-- EDGE t (R208-R211). Every threshold is accepted (R209). -/
def execEdge (t : Int) (s : State) : Host.Outcome State Fault Refusal := s.command none (bodyEdge t s)

/-! ## BLUR -/

/-- Static checks of BLUR, in order (R216, R272). -/
def checkBlur (sigma : Nat) (s : State) : Option ErrKind :=
  if sigma = 0 then some .invalidParameter
  else if gaussRadius sigma > s.params.gaussRmax then some .capacityExceeded
  else none

/-- GW filled with W_0..W_r; entries above r keep what they held (R57, R214; log 13). -/
def fillGw (sigma : Nat) (old : List Word32) : List Word32 :=
  (gaussWeights sigma).map (BitVec.ofNat 32) ++ old.drop (gaussWeights sigma).length

/-- The weight at offset `k - r` of the 2r + 1 taps, W_|k-r| of the table `gw` (R214, R215). -/
def tapWeight (gw : List Word32) (r k : Nat) : Int := ((gw.getD ((k : Int) - r).natAbs 0).toNat : Int)

/-- The horizontal pass: the engine with a 1 by 2r+1 kernel (R215). -/
def hpass (gw : List Word32) (r : Nat) (S : Image) : Image := conv S 1 (2 * r + 1) fun _ i => tapWeight gw r i

/-- The vertical pass: the engine with a 2r+1 by 1 kernel (R215). -/
def vpass (gw : List Word32) (r : Nat) (S : Image) : Image := conv S (2 * r + 1) 1 fun j _ => tapWeight gw r j

/-- Execution of BLUR: fill GW, then the horizontal pass, then the vertical one (R217). -/
def bodyBlur (sigma : Nat) (s : State) : Except ErrKind State :=
  s.withImage fun I =>
    let gw := fillGw sigma s.gw
    .ok { s with
      gw := gw
      img := some (vpass gw (gaussRadius sigma) (hpass gw (gaussRadius sigma) I)) }

/-- BLUR s, sigma = s / 256 (R212-R218). -/
def execBlur (sigma : Nat) (s : State) : Host.Outcome State Fault Refusal :=
  s.command (checkBlur sigma s) (bodyBlur sigma s)

end Sys2Proof.Machine
end

