-- ==== Sys2Proof/Machine/Filters.lean ====
section
/-! DEFINITION. The point, neighbourhood and global filters: GRAY, NEG, MEDIAN, GAMMA, HISTEQ and CROP (R230-R260). -/

namespace Sys2Proof.Machine

/-! ## GRAY -/

/-- Execution of GRAY (R233). -/
def bodyGray (s : State) : Except ErrKind State := s.mapImage grayImage

/-- GRAY (R231-R234, R238). -/
def execGray (s : State) : Host.Outcome State Fault Refusal := s.command none (bodyGray s)

/-! ## NEG -/

/-- The negative of a pixel: 255 - c in each channel (R236). -/
def Pixel.negative (p : Pixel) : Pixel where
  r := 255 - p.r
  g := 255 - p.g
  b := 255 - p.b

/-- The negative of an image (R236). -/
def negImage (S : Image) : Image := newImage S.w S.h fun x y => (S.px x y).negative

/-- Execution of NEG (R236). -/
def bodyNeg (s : State) : Except ErrKind State := s.mapImage negImage

/-- NEG (R235-R237, R239). -/
def execNeg (s : State) : Host.Outcome State Fault Refusal := s.command none (bodyNeg s)

/-! ## MEDIAN -/

/-- Static checks of MEDIAN, in order (R241, R272). -/
def checkMedian (r : Nat) (s : State) : Option ErrKind :=
  if r = 0 then some .invalidParameter
  else if r > s.params.medianRmax then some .capacityExceeded
  else none

/-- The window V_c(x, y): (2r + 1)² values, a clamped pixel once per position it fills (R242). -/
def medianWindow (S : Image) (r : Nat) (c : Pixel → Byte) (x y : Nat) : List Nat :=
  (List.range (2 * r + 1)).flatMap fun (j : Nat) =>
    (List.range (2 * r + 1)).map fun (i : Nat) => (c (S.getc (x + i - r) (y + j - r))).toNat

/-- The element of rank 2r(r + 1) of a window in ascending order (R242). -/
def middleRank (r : Nat) (V : List Nat) : Nat := (V.insertionSort (· ≤ ·)).getD (2 * r * (r + 1)) 0

/-- The median of one channel (R242, R243). -/
def medianChannel (S : Image) (r : Nat) (c : Pixel → Byte) (x y : Nat) : Byte :=
  BitVec.ofNat 8 (middleRank r (medianWindow S r c x y))

/-- The image of channel medians (R243). -/
def medianImage (r : Nat) (S : Image) : Image :=
  newImage S.w S.h fun x y =>
    { r := medianChannel S r Pixel.r x y
      g := medianChannel S r Pixel.g x y
      b := medianChannel S r Pixel.b x y }

/-- Execution of MEDIAN (R243). -/
def bodyMedian (r : Nat) (s : State) : Except ErrKind State := s.mapImage (medianImage r)

/-- MEDIAN r (R240-R244). -/
def execMedian (r : Nat) (s : State) : Host.Outcome State Fault Refusal :=
  s.command (checkMedian r s) (bodyMedian r s)

/-! ## GAMMA -/

/-- Static check of GAMMA (R246, R272). -/
def checkGamma (g : Nat) (_s : State) : Option ErrKind := if g = 0 then some .invalidParameter else none

/-- All 256 entries of GAMMA_LUT (R247). -/
def gammaTable (g : Nat) : List Byte := (List.range 256).map (gammaEntry g)

/-- A pixel sent through a byte table, channel by channel (R248). -/
def Pixel.through (lut : List Byte) (p : Pixel) : Pixel where
  r := lut.getD p.r.toNat 0
  g := lut.getD p.g.toNat 0
  b := lut.getD p.b.toNat 0

/-- An image sent through a byte table (R248). -/
def lutImage (lut : List Byte) (S : Image) : Image := newImage S.w S.h fun x y => (S.px x y).through lut

/-- Execution of GAMMA: fill GAMMA_LUT, then map every channel through it (R248). -/
def bodyGamma (g : Nat) (s : State) : Except ErrKind State :=
  s.withImage fun I =>
    .ok { s with
      gammaLut := gammaTable g
      img := some (lutImage (gammaTable g) I) }

/-- GAMMA g, the value is g / 256 (R245-R249). -/
def execGamma (g : Nat) (s : State) : Host.Outcome State Fault Refusal :=
  s.command (checkGamma g s) (bodyGamma g s)

/-! ## HISTEQ -/

/-- HIST: how many pixels have each luma (R251). -/
def histogram (S : Image) : List Word32 :=
  (List.range 256).map fun v => BitVec.ofNat 32 ((S.pixels.map luma).count v)

/-- CDF: the running sums of HIST (R252). -/
def cumulate (hist : List Word32) : List Word32 :=
  (List.range 256).map fun v => BitVec.ofNat 32 (((hist.take (v + 1)).map BitVec.toNat).sum)

/-- cdf_min: the first CDF entry above 0, which is the least, since CDF rises (R252). -/
def cdfMin (cdf : List Word32) : Nat := ((cdf.map BitVec.toNat).find? fun n => decide (0 < n)).getD 0

/-- One entry of HEQ_LUT for a CDF value at or above `lo`, for N pixels (R254). -/
def heqEntry (N lo c : Nat) : Byte := BitVec.ofNat 8 (((c - lo) * 510 + (N - lo)) / (2 * (N - lo)))

/-- HEQ_LUT: an entry whose CDF is below cdf_min is never read and keeps what it held (R254; log 13). -/
def fillHeqLut (N : Nat) (cdf : List Word32) (old : List Byte) : List Byte :=
  (List.range 256).map fun v =>
    if cdfMin cdf ≤ (cdf.getD v 0).toNat then heqEntry N (cdfMin cdf) (cdf.getD v 0).toNat else old.getD v 0

/-- A pixel replaced by the gray of its remapped luma (R255). -/
def Pixel.equalized (lut : List Byte) (p : Pixel) : Pixel := Pixel.grayOf (lut.getD (luma p) 0)

/-- Execution of HISTEQ (R255). With one luma only, the image is left as it is, colours kept (R253). -/
def bodyHisteq (s : State) : Except ErrKind State :=
  s.withImage fun I =>
    let hist := histogram I
    let cdf := cumulate hist
    let N := I.w * I.h
    if N = cdfMin cdf then
      .ok { s with
        hist := hist
        cdf := cdf }
    else
      let lut := fillHeqLut N cdf s.heqLut
      .ok { s with
        hist := hist
        cdf := cdf
        heqLut := lut
        img := some (newImage I.w I.h fun x y => (I.px x y).equalized lut) }

/-- HISTEQ (R250-R256). -/
def execHisteq (s : State) : Host.Outcome State Fault Refusal := s.command none (bodyHisteq s)

/-! ## CROP -/

/-- Static check of CROP (R258, R272). -/
def checkCrop (w h : Nat) (_s : State) : Option ErrKind :=
  if w = 0 ∨ h = 0 then some .invalidParameter else none

/-- The top-left `w` by `h` pixels, or as many as there are (R259). -/
def cropImage (w h : Nat) (S : Image) : Image := newImage (min w S.w) (min h S.h) S.px

/-- Execution of CROP (R259). -/
def bodyCrop (w h : Nat) (s : State) : Except ErrKind State := s.mapImage (cropImage w h)

/-- CROP w, h (R257-R260). -/
def execCrop (w h : Nat) (s : State) : Host.Outcome State Fault Refusal :=
  s.command (checkCrop w h s) (bodyCrop w h s)

end Sys2Proof.Machine
end

