-- ==== Sys2Proof/Machine/Dispatch.lean ====
section
/-! DEFINITION. One arm per command: the dispatch of a decoded command to its meaning (R271, R273). -/

namespace Sys2Proof.Machine

def exec (i : Instr) (s : State) : Host.Outcome State Fault Refusal :=
  match i with
  | .decode => Sys2Proof.Machine.execDecode s
  | .encode => Sys2Proof.Machine.execEncode s
  | .create w h => Sys2Proof.Machine.execCreate w h s
  | .conv => Sys2Proof.Machine.execConv s
  | .sharpen => Sys2Proof.Machine.execSharpen s
  | .edge t => Sys2Proof.Machine.execEdge t s
  | .blur sigma => Sys2Proof.Machine.execBlur sigma s
  | .gray => Sys2Proof.Machine.execGray s
  | .neg => Sys2Proof.Machine.execNeg s
  | .median r => Sys2Proof.Machine.execMedian r s
  | .gamma g => Sys2Proof.Machine.execGamma g s
  | .histeq => Sys2Proof.Machine.execHisteq s
  | .crop w h => Sys2Proof.Machine.execCrop w h s

end Sys2Proof.Machine
end

