-- ==== Sys2Proof/Machine/HostPort.lean ====
section
/-! DEFINITION. The host's side: the address map (R80, R81), the register map (R34) with its access rules while idle and
while busy (R88), the pixel port (R147, R148) and one host transaction (R84, R85). -/

namespace Sys2Proof.Machine

/-! ## The address map -/

/-- What a byte offset from BASE names (R80). -/
inductive Target where
  /-- the register window -/
  | registers (off : Nat)
  /-- a byte of a memory window -/
  | memory (space : Space) (a : Nat)
  /-- no window -/
  | unmapped
  deriving DecidableEq, Repr

/-- The map of R80. -/
def targetOf (off : Nat) : Target :=
  if off < 0x1000 then .registers off
  else if off < 0x2000 then .memory .kmem (off - 0x1000)
  else if off < 0x10000 then .unmapped
  else if off < 0x20000 then .memory .cmdMem (off - 0x10000)
  else if off < 0x1000000 then .unmapped
  else if off < 0x2000000 then .memory .inMem (off - 0x1000000)
  else if off < 0x3000000 then .memory .outMem (off - 0x2000000)
  else .unmapped

/-- The offset of a host address from BASE, modulo 2^32 (R80; log 23). -/
def Params.offset (p : Params) (addr : Word32) : Nat := (addr - p.base).toNat

/-- The bytes of an access (R85). -/
def Width.bytes (width : Width) : Nat :=
  match width with
  | .w8 => 1
  | .w16 => 2
  | .w32 => 4

/-- Whether a target takes an access of a width: registers and KMEM take 32 bits only (R85). -/
def Target.accepts (t : Target) (width : Width) : Bool :=
  match t with
  | .registers _ => width == .w32
  | .memory .kmem _ => width == .w32
  | .memory .cmdMem _ => true
  | .memory .inMem _ => true
  | .memory .outMem _ => true
  | .unmapped => true

/-- Whether an access is naturally aligned and of a width its target takes; else it gets SLVERR (R85; log 18). -/
def accessOk (off : Nat) (width : Width) : Bool :=
  decide (off % width.bytes = 0) && (targetOf off).accepts width

/-- The register at an offset of the register window; none is unmapped (R34, R59). -/
def regAt (off : Nat) : Option Reg :=
  match off with
  | 0x000 => some .ctrl
  | 0x004 => some .status
  | 0x008 => some .errCode
  | 0x00C => some .errCmd
  | 0x010 => some .cp
  | 0x014 => some .cmdLen
  | 0x018 => some .inLen
  | 0x01C => some .outLen
  | 0x020 => some .imgWidth
  | 0x024 => some .imgHeight
  | 0x028 => some .pixX
  | 0x02C => some .pixY
  | 0x030 => some .pixData
  | 0x034 => some .irqEn
  | 0x038 => some .irqPend
  | 0x03C => some .kcfg
  | 0x040 => some .capIn
  | 0x044 => some .capOut
  | 0x048 => some .capCmd
  | 0x04C => some .capDim
  | 0x050 => some .capPixels
  | 0x054 => some .capK
  | _ => none

/-! ## Register reads -/

/-- The state after one free value has been drawn. -/
def State.drawn (s : State) : State := { s with draws := s.draws + 1 }

/-- A read that R88 calls unspecified while busy: a fresh free value; while idle, `v` (U1; log 11). -/
def State.readUnlessBusy (s : State) (v : Word32) : Word32 × State :=
  if s.busy then (Config.unspecifiedWord s.draws, s.drawn) else (v, s)

/-- A STATUS read (R37, R88). -/
def State.readStatus (s : State) : Word32 × State :=
  if s.busy then (s.statusBusy (Config.unspecifiedWord s.draws), s.drawn) else (s.statusWord, s)

/-- A PIX_DATA read: the pixel at (PIX_X, PIX_Y); out of bounds or with no image, 0 and IDX_ERR (R147). While busy it
reads 0 and has no side effect (R88). -/
def State.readPixData (s : State) : Word32 × State :=
  if s.busy then (0, s)
  else
    match s.img.bind fun I => I.get? s.pixX.toNat s.pixY.toNat with
    | some p => (p.word, s)
    | none => (0, { s with idxErr := true })

/-- A read of a register: the word, and the state after it (R34, R87, R88). -/
def State.readReg (s : State) (r : Reg) : Word32 × State :=
  match r with
  | .ctrl => (0, s)
  | .status => s.readStatus
  | .errCode => (s.errCode.setWidth 32, s)
  | .errCmd => (s.errCmd, s)
  | .cp => s.readUnlessBusy s.cp
  | .cmdLen => (s.cmdLen, s)
  | .inLen => (s.inLen, s)
  | .outLen => s.readUnlessBusy s.outLen
  | .imgWidth => s.readUnlessBusy (BitVec.ofNat 32 s.imgWidth)
  | .imgHeight => s.readUnlessBusy (BitVec.ofNat 32 s.imgHeight)
  | .pixX => (s.pixX, s)
  | .pixY => (s.pixY, s)
  | .pixData => s.readPixData
  | .irqEn => (s.irqEnWord, s)
  | .irqPend => (s.irqPendWord, s)
  | .kcfg => (s.kcfgWord, s)
  | .capIn => (BitVec.ofNat 32 s.params.inCap, s)
  | .capOut => (BitVec.ofNat 32 s.params.outCap, s)
  | .capCmd => (BitVec.ofNat 32 s.params.cmdCap, s)
  | .capDim => (s.params.dimWord, s)
  | .capPixels => (BitVec.ofNat 32 s.params.maxPixels, s)
  | .capK => (s.params.kWord, s)

/-! ## Register writes -/

/-- A CTRL write: SRESET first; else, while idle, CLR_IDX and then START (R35). -/
def State.writeCtrl (s : State) (v : Word32) : State :=
  if v.getLsbD 1 then s.softReset
  else if s.busy then s
  else
    let t := if v.getLsbD 2 then { s with idxErr := false } else s
    if v.getLsbD 0 then t.start else t

/-- A PIX_DATA write: the pixel at (PIX_X, PIX_Y) replaced; out of bounds or with no image, dropped and IDX_ERR set
(R148). While busy it is ignored (R88). -/
def State.writePixData (s : State) (v : Word32) : State :=
  if s.busy then s
  else
    match s.img.bind fun I => I.set? s.pixX.toNat s.pixY.toNat (Pixel.ofWord v) with
    | some I => { s with img := some I }
    | none => { s with idxErr := true }

/-- A write that R88 ignores while busy. -/
def State.writeUnlessBusy (s t : State) : State := if s.busy then s else t

/-- A write of a register (R34, R87, R88). -/
def State.writeReg (s : State) (r : Reg) (v : Word32) : State :=
  match r with
  | .ctrl => s.writeCtrl v
  | .status => s
  | .errCode => s
  | .errCmd => s
  | .cp => s
  | .cmdLen => s.writeUnlessBusy { s with cmdLen := v }
  | .inLen => s.writeUnlessBusy { s with inLen := v }
  | .outLen => s
  | .imgWidth => s
  | .imgHeight => s
  | .pixX => s.writeUnlessBusy { s with pixX := v }
  | .pixY => s.writeUnlessBusy { s with pixY := v }
  | .pixData => s.writePixData v
  | .irqEn => { s with doneIe := v.getLsbD 0, errIe := v.getLsbD 1 }
  | .irqPend => { s with doneIp := s.doneIp && !v.getLsbD 0, errIp := s.errIp && !v.getLsbD 1 }
  | .kcfg => s.writeUnlessBusy { s with kw := v.extractLsb' 0 8, kh := v.extractLsb' 8 8 }
  | .capIn => s
  | .capOut => s
  | .capCmd => s
  | .capDim => s
  | .capPixels => s
  | .capK => s

/-! ## Memory windows -/

/-- A host read of `n` bytes of a memory window: 0 while busy (R88), and 0 for each byte that is not implemented
(R81, R84; log 17). -/
def State.hostMemRead (s : State) (space : Space) (a n : Nat) : Word32 :=
  if s.busy then 0
  else
    BitVec.ofNat 32
      (readLE (fun k => if k < s.params.sizeOf space then s.readByte space k else 0) a n)

/-- A host write of `n` bytes of a memory window: ignored while busy (R88), to OUT_MEM (R86), and for each byte that is
not implemented (R81, R84; log 17). -/
def State.hostMemWrite (s : State) (space : Space) (a n : Nat) (data : Word32) : State :=
  if s.busy || space == .outMem then s
  else
    s.withMem space
      ((s.mem space).write a ((leBytes n data.toNat).take (s.params.sizeOf space - a)))

/-! ## One transaction -/

/-- The response to an access that R85 rejects. -/
def busError : BusResponse := { data := 0, slverr := true }

/-- The response of a transaction that completes without error. -/
def busOk (data : Word32) : BusResponse := { data := data, slverr := false }

/-- A host read (R84-R88): the response, and the state after it. -/
def State.hostRead (s : State) (addr : Word32) (width : Width) : BusResponse × State :=
  let off := s.params.offset addr
  if accessOk off width then
    match targetOf off with
    | .registers o =>
      match regAt o with
      | some r => (busOk (s.readReg r).1, (s.readReg r).2)
      | none => (busOk 0, s)
    | .memory space a => (busOk (s.hostMemRead space a width.bytes), s)
    | .unmapped => (busOk 0, s)
  else (busError, s)

/-- A host write (R84-R88): the response, and the state after it. -/
def State.hostWrite (s : State) (addr : Word32) (width : Width) (data : Word32) : BusResponse × State :=
  let off := s.params.offset addr
  if accessOk off width then
    match targetOf off with
    | .registers o =>
      match regAt o with
      | some r => (busOk 0, s.writeReg r data)
      | none => (busOk 0, s)
    | .memory space a => (busOk 0, s.hostMemWrite space a width.bytes data)
    | .unmapped => (busOk 0, s)
  else (busError, s)

/-- What a transaction does, before its response is recorded. -/
def State.hostAccess (s : State) (req : HostReq) : BusResponse × State :=
  match req with
  | .read addr width => s.hostRead addr width
  | .write addr width data => s.hostWrite addr width data

/-- One host transaction, its response recorded. -/
def State.transact (s : State) (req : HostReq) : State :=
  { (s.hostAccess req).2 with responses := (s.hostAccess req).1 :: (s.hostAccess req).2.responses }

end Sys2Proof.Machine
end

