-- ==== Sys2Proof/Machine/Engine.lean ====
section
/-! DEFINITION. The engine's moves (R270-R278) and one step of the whole block: the next event, or the engine. -/

namespace Sys2Proof.Machine

/-- The command CP names is fetched, decoded and performed: checked in VALIDATE, executed in EXECUTE (R271, R273). A word
that is no command raises IllegalCommand (R116; in EXECUTE no run reaches this, log 20). -/
def runSlot (s : State) : Host.Outcome State Fault Refusal :=
  if s.slotExists s.cp.toNat then
    match s.slotCommand s.cp.toNat with
    | .ok i => exec i s
    | .error _ => .next (s.endWithError .illegalCommand s.cp)
  else .fault (.engineOutsideCmdMem s.cp.toNat)

/-- One move of the engine. IDLE: none. VALIDATE: the CMD_LEN check (R277), then the command CP names, then the change to
EXECUTE (R271). EXECUTE: the command CP names, then the end of the run (R273, R275). -/
def engineMove (s : State) : Host.Outcome State Fault Refusal :=
  match s.phase with
  | .idle => .next s
  | .validate =>
    if s.cmdLen.toNat > s.params.cmdCap then .next (s.endWithError .capacityExceeded noCommand)
    else if s.cp.toNat < s.cmdLen.toNat then runSlot s
    else .next s.beginExecution
  | .execute =>
    if s.cp.toNat < s.cmdLen.toNat then runSlot s
    else .next s.endWithSuccess

/-- What one event does to the block. A transaction and an engine move at one moment are the transaction and then the
move: a bit that the move sets ends set (R49, R313), and a soft reset ends the run before its end can happen (R305). -/
def handleEvent (e : Event) (s : State) : Host.Outcome State Fault Refusal :=
  match e with
  | .engine => engineMove s
  | .host req => .next (s.transact req)
  | .both req => engineMove (s.transact req)
  | .hardwareReset => .next s.softReset
  | .powerOn => .next s.powerOn

/-- One step: the first event that is due, else the engine (log 6). -/
def stepBlock (s : State) : Host.Outcome State Fault Refusal :=
  match s.events with
  | [] => engineMove s
  | e :: es => handleEvent e { s with events := es }

/-- The state with the command whose bits are `w` in slot 0, as the only command of a run that has been validated and is
about to execute it (log 7). -/
def State.placeCommand (s : State) (nbits w : Nat) : State :=
  { s with
    cmdMem := s.cmdMem.write 0 (leBytes 8 (w % 2 ^ nbits))
    cmdLen := 1
    cp := 0
    phase := .execute
    events := [] }

end Sys2Proof.Machine
end

