-- ==== Sys2Proof/Machine/Step.lean ====
section
/-! DEFINITION. The step of the block, and the placing of one command where the next step fetches it. -/

namespace Sys2Proof.Machine

/-- One step of the block (R20, R21; log 2). -/
def step (s : State) : Host.Outcome State Fault Refusal := stepBlock s

/-- `s` with the command whose bits are `w` placed so that the next step fetches and runs it (log 7). -/
def State.withFetchWord (s : State) (nbits w : Nat) : State := s.placeCommand nbits w

end Sys2Proof.Machine
end

