-- ==== Sys2Proof/Machine/Run.lean ====
section
/-! DEFINITION. A run read as the spec's own two loops (R271, R273, R285): the static checks of R272 and the executions of
R273 as functions of the command, and the whole run as one function of the state at START. The step does not use this
file; statements compare the step with it. -/

namespace Sys2Proof.Machine

/-- `static_check(c)` of R272. -/
def staticCheck (i : Instr) (s : State) : Option ErrKind :=
  match i with
  | .decode => none
  | .encode => none
  | .create w h => checkCreate w h s
  | .conv => checkConv s
  | .sharpen => none
  | .edge _ => none
  | .blur sigma => checkBlur sigma s
  | .gray => none
  | .neg => none
  | .median r => checkMedian r s
  | .gamma g => checkGamma g s
  | .histeq => none
  | .crop w h => checkCrop w h s

/-- `execute(c)` of R273, the family rule's execution alone. -/
def executeCommand (i : Instr) (s : State) : Except ErrKind State :=
  match i with
  | .decode => bodyDecode s
  | .encode => bodyEncode s
  | .create w h => bodyCreate w h s
  | .conv => bodyConv s
  | .sharpen => bodySharpen s
  | .edge t => bodyEdge t s
  | .blur sigma => bodyBlur sigma s
  | .gray => bodyGray s
  | .neg => bodyNeg s
  | .median r => bodyMedian r s
  | .gamma g => bodyGamma g s
  | .histeq => bodyHisteq s
  | .crop w h => bodyCrop w h s

/-- What validation finds wrong with command slot `k`: an illegal word, else the first failing static check (R271, R304). -/
def slotError (s : State) (k : Nat) : Option ErrKind :=
  match s.slotCommand k with
  | .error _ => some .illegalCommand
  | .ok i => staticCheck i s

/-- The loop of R273 over the next `n` commands, CP at the first of them, and the end of the run. -/
def executeLoop : Nat → State → State
  | 0, s => s.endWithSuccess
  | n + 1, s =>
    match s.slotCommand s.cp.toNat with
    | .error _ => s.endWithError .illegalCommand s.cp
    | .ok i =>
      match executeCommand i s with
      | .error e => s.endWithError e s.cp
      | .ok t => executeLoop n t.advance

/-- The loop of R271 over the next `n` commands, CP at the first of them; with none left, the execution phase. -/
def validateLoop : Nat → State → State
  | 0, s => executeLoop s.cmdLen.toNat s.beginExecution
  | n + 1, s =>
    match slotError s s.cp.toNat with
    | some e => s.endWithError e s.cp
    | none => validateLoop n s.advance

/-- `run(state)` of R285, for a state as START leaves it. -/
def wholeRun (s : State) : State :=
  if s.cmdLen.toNat > s.params.cmdCap then s.endWithError .capacityExceeded noCommand
  else validateLoop s.cmdLen.toNat s

end Sys2Proof.Machine
end

