-- ==== Sys2Proof/Safety.lean ====
section
/-! DEFINITION. What counts as a good state of the block, in the terms the statements use. -/

namespace Sys2Proof.Machine

/-- The good states: the invariants R60 lists, the legal values R7, R36 and R38 give, the image and memory forms, and
what holds between START and the end of a run (R88). -/
structure Safe (s : State) : Prop where
  /-- the parameters are legal (R7) -/
  legal : s.params.Legal
  /-- every byte space is in canonical form and lists implemented addresses only (R80, R81) -/
  memories : ∀ space, (s.mem space).wf ∧ (s.mem space).within (s.params.sizeOf space)
  /-- an image is a full grid within the capacities (R32, R60 b) -/
  image : ∀ I, s.img = some I → I.wf ∧ s.params.holds I.w I.h = true
  /-- DONE and ERR are never both 1 (R37, R60 c) -/
  notBoth : ¬(s.done = true ∧ s.err = true)
  /-- while busy neither is 1 (R88) -/
  busyClear : s.phase ≠ .idle → s.done = false ∧ s.err = false
  /-- without an error the error registers are 0 (R60 d) -/
  noError : s.err = false → s.errCode = 0 ∧ s.errCmd = 0
  /-- ERR_CODE holds a legal value (R38) -/
  errCodeLegal : s.errCode.toNat ≤ 5 ∨ s.errCode.toNat = 7 ∨ s.errCode.toNat = 8
  /-- after an error no image is held (R306) -/
  errorDiscards : s.err = true → s.img = none ∧ s.outValid = false
  /-- a valid output has a legal length (R60 e) -/
  outputLength : s.outValid = true → 54 ≤ s.outLen.toNat ∧ s.outLen.toNat ≤ s.params.outCap
  /-- a valid output seen while idle belongs to a completed run (R60 e) -/
  outputDone : s.phase = .idle → s.outValid = true → s.done = true
  /-- without a valid output OUT_LEN is 0 (R60 f) -/
  noOutput : s.outValid = false → s.outLen = 0
  /-- CP is legal (R36) -/
  cpLegal : s.cp.toNat ≤ s.params.cmdCap
  /-- an execution phase has a command list that fits CMD_MEM (R271, R277) -/
  listFits : s.phase = .execute → s.cmdLen.toNat ≤ s.params.cmdCap
  /-- the hidden tables have their sizes (R55-R57) -/
  tables : s.gammaLut.length = 256 ∧ s.hist.length = 256 ∧ s.cdf.length = 256 ∧ s.heqLut.length = 256 ∧
    s.gw.length = 65

/-- What validation has established: in VALIDATE the slots below CP passed, in EXECUTE all of them did (R271, R304). -/
def Validated (s : State) : Prop :=
  (s.phase = .validate → ∀ k, k < s.cp.toNat → slotError s k = none) ∧
    (s.phase = .execute → ∀ k, k < s.cmdLen.toNat → slotError s k = none)

/-- `c` is one of the three channels r, g, b (R15). -/
def IsChannel (c : Pixel → Byte) : Prop := c = Pixel.r ∨ c = Pixel.g ∨ c = Pixel.b

/-- The error allowed to each e_i of `gaussExps` by `gaussDecisive`: 2^64 of 2^128. -/
def gaussSlack : Nat := 0x10000000000000000

/-- No rounding of R214 for `sigma` changes when each e_i moves by up to `gaussSlack`: the integer weights are then those
of the real quotients, once the e_i are known to be that close (log 14). -/
def gaussDecisive (sigma : Nat) : Bool :=
  let es := gaussExps sigma
  let Z := gaussUnit + 2 * es.sum
  let d := 2 * es.length * gaussSlack
  es.all fun e =>
    (2 * (65536 * (e - gaussSlack)) + (Z + d)) / (2 * (Z + d)) ==
      (2 * (65536 * (e + gaussSlack)) + (Z - d)) / (2 * (Z - d))

end Sys2Proof.Machine
end

