-- ==== Sys2Proof/Certificates/Slice0/Obligations.lean ====
section
/-! DEFINITION. The statements for the provers, one proposition each. R<n> are the rules of spec/. -/

open Sys2Proof Sys2Proof.Machine

/-! ## Encoding -/

/-- Decoding an encoded well-formed command gives it back, as a word and as the 8 bytes of a slot (R111-R114, R117). -/
def Obligations.DecodeOfEncodeIsIdentity : Prop :=
  ∀ i : Instr, i.wellFormed = true → decodeWord (encode i) = .ok i ∧ decodeBytes (encodeBytes i) = .ok i

/-- A word that decodes is the encoding of what it decodes to, which is well-formed: each command has one word. -/
def Obligations.DecodedWordIsItsEncoding : Prop :=
  ∀ (w : Word64) (i : Instr), decodeWord w = .ok i → i.wellFormed = true ∧ encode i = w

/-- R115: a word spells a command exactly when it matches the command's row under the row's mask, with the masks and match
values of the table, and at most one row matches any word. -/
def Obligations.WordsMatchTheirRow : Prop :=
  (∀ (w : Word64) (i : Instr), decodeWord w = .ok i → w &&& rowMask i = rowMatch i) ∧
  (∀ (w : Word64) (j : Instr), w &&& rowMask j = rowMatch j → ∃ i, decodeWord w = .ok i ∧ rowMatch i = rowMatch j) ∧
  (∀ (w : Word64) (i j : Instr), w &&& rowMask i = rowMatch i → w &&& rowMask j = rowMatch j →
    rowMatch i = rowMatch j) ∧
  (∀ i : Instr, i ∈ [.decode, .encode, .conv, .sharpen, .gray, .neg, .histeq] → rowMask i = 0xFFFFFFFFFFFFFFFF) ∧
  (∀ (t : Int) (v : Nat) (i : Instr), i ∈ [.edge t, .blur v, .median v, .gamma v] →
    rowMask i = 0xFFFFFFFF0000FFFF) ∧
  (∀ (w h : Nat) (i : Instr), i ∈ [.create w h, .crop w h] → rowMask i = 0xFFFF00000000FFFF) ∧
  (∀ (t : Int) (v w h : Nat),
    [Instr.decode, .encode, .create w h, .conv, .sharpen, .edge t, .blur v, .gray, .neg, .median v, .gamma v, .histeq,
        .crop w h].map rowMatch =
      [0x01, 0x02, 0x03, 0x10, 0x11, 0x12, 0x13, 0x20, 0x21, 0x22, 0x23, 0x24, 0x25])

/-- The words that are no command are exactly those R116 lists: an unlisted opcode, a reserved field not 0, or a field the
opcode does not name not 0. -/
def Obligations.IllegalWordsAreExactlyThese : Prop :=
  ∀ w : Word64, (∃ d, decodeWord w = .error d) ↔
    ((opcField w).toNat ∉ [0x01, 0x02, 0x03, 0x10, 0x11, 0x12, 0x13, 0x20, 0x21, 0x22, 0x23, 0x24, 0x25] ∨
      rsv0Field w ≠ 0 ∨ rsv1Field w ≠ 0 ∨
      ((opcField w).toNat ∈ [0x01, 0x02, 0x10, 0x11, 0x20, 0x21, 0x24] ∧ (aField w ≠ 0 ∨ bField w ≠ 0)) ∨
      ((opcField w).toNat ∈ [0x12, 0x13, 0x22, 0x23] ∧ bField w ≠ 0))

/-- The words and the bytes of R120, and words of 95_test_vectors.md 2.1, decode to the commands they stand for. -/
def Obligations.SampleWordsDecode : Prop :=
  decodeWord 0x0000000000000001 = .ok .decode ∧ decodeWord 0x0000000000000002 = .ok .encode ∧
  decodeWord 0x0000000200030003 = .ok (.create 3 2) ∧ decodeWord 0x0000000100020025 = .ok (.crop 2 1) ∧
  decodeWord 0x00000000FFFF0012 = .ok (.edge (-1)) ∧ decodeWord 0x0000000000800012 = .ok (.edge 128) ∧
  decodeWord 0x0000000001000013 = .ok (.blur 256) ∧ decodeWord 0x0000000002330023 = .ok (.gamma 563) ∧
  decodeWord 0x0000000000010022 = .ok (.median 1) ∧ decodeWord 0x0000000000000021 = .ok .neg ∧
  decodeBytes [0x12, 0x00, 0xFF, 0xFF, 0, 0, 0, 0] = .ok (.edge (-1)) ∧
  decodeBytes [0x25, 0x00, 0x02, 0x00, 0x01, 0x00, 0x00, 0x00] = .ok (.crop 2 1) ∧
  decodeWord 0 = .error .unassignedOpcode ∧ decodeWord 0x0000000000010001 = .error .unusedFieldNotZero

/-! ## The step -/

/-- With no event pending, or an engine move next, a step of a busy block whose CP names a command runs exactly that
command: checked in VALIDATE, executed in EXECUTE (R271, R273). That a step is one command in one phase, and that `events`
says who moves, is the model's choice (log 2, log 6). -/
def Obligations.StepRunsDecodedCommand : Prop :=
  ∀ (s : State) (i : Instr), s.phase ≠ .idle → s.cmdLen.toNat ≤ s.params.cmdCap → s.cp.toNat < s.cmdLen.toNat →
    decodeBytes (s.slotBytes s.cp.toNat) = .ok i →
    (s.events = [] → step s = exec i s) ∧
      (∀ es, s.events = .engine :: es → step s = exec i { s with events := es })

/-- R116, R271: an illegal word in the slot CP names ends a validation with IllegalCommand, code 7, at that index. -/
def Obligations.IllegalWordEndsValidation : Prop :=
  ∀ (s : State) (d : DecodeError), s.events = [] → s.phase = .validate → s.cmdLen.toNat ≤ s.params.cmdCap →
    s.cp.toNat < s.cmdLen.toNat → decodeBytes (s.slotBytes s.cp.toNat) = .error d →
    ∃ t, step s = .next t ∧ t.errCode = 7 ∧ t.errCmd = s.cp ∧ t.err = true ∧ t.errIp = true ∧ t.img = none ∧
      t.outLen = 0 ∧ t.outValid = false ∧ t.phase = .idle

/-! ## DECODE and ENCODE -/

/-- R166, R173: a stream that passes the 13 steps is decoded: the image takes its pixels from the data offset on, bottom-up
for a positive height and top-down for a negative one, blue, green, red, and nothing else changes. -/
def Obligations.DecodeCompletes : Prop :=
  ∀ (s : State) (rd : Nat → Byte) (n off w h rb : Nat) (hgt : Int), s.phase = .execute →
    rd = s.readByte .inMem → n = s.inLen.toNat → off = readLE rd 10 4 → hgt = asI32 (readLE rd 22 4) →
    (w : Int) = asI32 (readLE rd 18 4) → h = hgt.natAbs → rb = (3 * w + 3) / 4 * 4 →
    n ≤ s.params.inCap → 54 ≤ n → rd 0 = 0x42 → rd 1 = 0x4D → 40 ≤ readLE rd 14 4 → 1 ≤ w → hgt ≠ 0 →
    readLE rd 26 2 = 1 → readLE rd 28 2 = 24 → readLE rd 30 4 = 0 →
    w ≤ s.params.maxW → h ≤ s.params.maxH → w * h ≤ s.params.maxPixels →
    off + (h - 1) * rb + 3 * w ≤ n →
    ∃ D : Image, exec .decode s = .next { s with img := some D, cp := s.cp + 1 } ∧ D.wf ∧ D.w = w ∧ D.h = h ∧
      ∀ x y k, x < w → y < h → k = (if 0 < hgt then h - 1 - y else y) →
        D.px x y =
          { r := rd (off + k * rb + 3 * x + 2), g := rd (off + k * rb + 3 * x + 1), b := rd (off + k * rb + 3 * x) }

/-- R167: DECODE ends the run with the error of the first step of R166 that fails, in step order. -/
def Obligations.DecodeReportsFirstFailingStep : Prop :=
  ∀ (s : State) (rd : Nat → Byte) (n w h : Nat) (wid hgt : Int) (e : ErrKind), s.phase = .execute →
    rd = s.readByte .inMem → n = s.inLen.toNat → wid = asI32 (readLE rd 18 4) → hgt = asI32 (readLE rd 22 4) →
    w = wid.toNat → h = hgt.natAbs →
    ([ (decide (n > s.params.inCap), ErrKind.capacityExceeded),
       (decide (n < 14), ErrKind.truncatedFileError),
       (decide (rd 0 ≠ 0x42 ∨ rd 1 ≠ 0x4D), ErrKind.formatError),
       (decide (n < 18), ErrKind.truncatedFileError),
       (decide (readLE rd 14 4 < 40), ErrKind.formatError),
       (decide (n < 54), ErrKind.truncatedFileError),
       (decide (wid ≤ 0), ErrKind.invalidDimensions),
       (decide (hgt = 0), ErrKind.invalidDimensions),
       (decide (readLE rd 26 2 ≠ 1), ErrKind.unsupportedFormat),
       (decide (readLE rd 28 2 ≠ 24), ErrKind.unsupportedFormat),
       (decide (readLE rd 30 4 ≠ 0), ErrKind.unsupportedFormat),
       (decide (w > s.params.maxW ∨ h > s.params.maxH ∨ w * h > s.params.maxPixels), ErrKind.capacityExceeded),
       (decide (readLE rd 10 4 + (h - 1) * ((3 * w + 3) / 4 * 4) + 3 * w > n), ErrKind.truncatedFileError)
      ].find? fun c => c.1) = some (true, e) →
    exec .decode s = .next (s.endWithError e s.cp)

/-- R165: bytes of IN_MEM at or above IN_LEN are never read: whatever DECODE answers, it answers the same when IN_MEM is
replaced by any contents that agree with it below IN_LEN, IN_MEM itself apart. -/
def Obligations.DecodeReadsOnlyTheStream : Prop :=
  ∀ (s t : State) (m : Memory), (∀ a, a < s.inLen.toNat → m.read .inMem a = s.readByte .inMem a) →
    exec .decode s = .next t → exec .decode { s with inMem := m } = .next { t with inMem := m }

/-- R177, R178, R180, R181: ENCODE writes the 54 header bytes, the rows bottom-up in the order blue, green, red, zero
padding, OUT_LEN and OUT_VALID, and nothing else; OUT_MEM at or above the file's size keeps its contents. -/
def Obligations.EncodeWritesTheFile : Prop :=
  ∀ (s : State) (I : Image) (rb size : Nat), s.params.Legal → s.phase = .execute → s.img = some I → I.wf →
    rb = (3 * I.w + 3) / 4 * 4 → size = 54 + rb * I.h → size ≤ s.params.outCap →
    ∃ (m : Memory) (rd : Nat → Byte), rd = m.read .outMem ∧
      exec .encode s = .next { s with
        outMem := m, outLen := BitVec.ofNat 32 size, outValid := true, cp := s.cp + 1 } ∧
      rd 0 = 0x42 ∧ rd 1 = 0x4D ∧ readLE rd 2 4 = size ∧ readLE rd 6 2 = 0 ∧ readLE rd 8 2 = 0 ∧
      readLE rd 10 4 = 54 ∧ readLE rd 14 4 = 40 ∧ readLE rd 18 4 = I.w ∧ readLE rd 22 4 = I.h ∧
      readLE rd 26 2 = 1 ∧ readLE rd 28 2 = 24 ∧ readLE rd 30 4 = 0 ∧ readLE rd 34 4 = rb * I.h ∧
      readLE rd 38 4 = 0 ∧ readLE rd 42 4 = 0 ∧ readLE rd 46 4 = 0 ∧ readLE rd 50 4 = 0 ∧
      (∀ k x, k < I.h → x < I.w →
        rd (54 + k * rb + 3 * x) = (I.px x (I.h - 1 - k)).b ∧
        rd (54 + k * rb + 3 * x + 1) = (I.px x (I.h - 1 - k)).g ∧
        rd (54 + k * rb + 3 * x + 2) = (I.px x (I.h - 1 - k)).r) ∧
      (∀ k j, k < I.h → 3 * I.w ≤ j → j < rb → rd (54 + k * rb + j) = 0) ∧
      (∀ a, size ≤ a → rd a = s.readByte .outMem a)

/-- R182: an image that ENCODE writes and DECODE then reads, IN_MEM holding the bytes written and IN_LEN the length, comes
back exactly. -/
def Obligations.EncodeThenDecodeReturnsImage : Prop :=
  ∀ (s t u : State) (I : Image), s.params.Legal → s.phase = .execute → s.img = some I → I.wf →
    s.params.holds I.w I.h = true → bmpSize I.w I.h ≤ s.params.outCap → bmpSize I.w I.h ≤ s.params.inCap →
    exec .encode s = .next t →
    u.params = s.params → u.phase = .execute → u.inLen = t.outLen →
    (∀ a, a < t.outLen.toNat → u.readByte .inMem a = t.readByte .outMem a) →
    exec .decode u = .next { u with img := some I, cp := u.cp + 1 }

/-- ENCODE's frame: whatever it answers, no byte but those of the file at OUT_MEM 0..size-1 changes, and no register but
OUT_LEN, OUT_VALID, CP and, when it ends the run, those of R306. It ends the run, and then writes no byte, with no image
held or with a file above OUT_CAP (R176, R179). -/
def Obligations.EncodeFrame : Prop :=
  ∀ (s t : State), exec .encode s = .next t →
    (∀ space a, (space = .outMem → s.phase = .validate ∨ ∀ I, s.img = some I → 54 + (3 * I.w + 3) / 4 * 4 * I.h ≤ a) →
      t.readByte space a = s.readByte space a) ∧
    t.params = s.params ∧ t.cmdLen = s.cmdLen ∧ t.inLen = s.inLen ∧ t.pixX = s.pixX ∧ t.pixY = s.pixY ∧
    t.doneIe = s.doneIe ∧ t.errIe = s.errIe ∧ t.doneIp = s.doneIp ∧ t.kw = s.kw ∧ t.kh = s.kh ∧ t.done = s.done ∧
    t.idxErr = s.idxErr ∧ t.gammaLut = s.gammaLut ∧ t.hist = s.hist ∧ t.cdf = s.cdf ∧ t.heqLut = s.heqLut ∧
    t.gw = s.gw ∧ t.draws = s.draws ∧ t.events = s.events ∧ t.responses = s.responses ∧
    ((t.phase = s.phase ∧ t.img = s.img ∧ t.err = s.err ∧ t.errIp = s.errIp ∧ t.errCode = s.errCode ∧
        t.errCmd = s.errCmd) ∨
      ∃ e, t = s.endWithError e s.cp) ∧
    (s.phase = .execute → s.img = none → t = s.endWithError .invalidDimensions s.cp) ∧
    (∀ I, s.phase = .execute → s.img = some I → s.params.outCap < 54 + (3 * I.w + 3) / 4 * 4 * I.h →
      t = s.endWithError .capacityExceeded s.cp) ∧
    (t.err = true → s.err = false → t.outMem = s.outMem)

/-! ## CREATE and CROP -/

/-- R146: CREATE of a size within the capacities makes a black image of that size, whatever is held. -/
def Obligations.CreateMakesBlackImage : Prop :=
  ∀ (s : State) (w h : Nat), s.phase = .execute → 1 ≤ w → 1 ≤ h → w ≤ s.params.maxW → h ≤ s.params.maxH →
    w * h ≤ s.params.maxPixels →
    ∃ D : Image, exec (.create w h) s = .next { s with img := some D, cp := s.cp + 1 } ∧ D.wf ∧ D.w = w ∧ D.h = h ∧
      ∀ x y, x < w → y < h → D.px x y = { r := 0, g := 0, b := 0 }

/-- R259: CROP keeps the top-left pixels, and a size above the image crops nothing in that direction. -/
def Obligations.CropKeepsTopLeft : Prop :=
  ∀ (s : State) (I : Image) (w h : Nat), s.phase = .execute → s.img = some I → I.wf → 1 ≤ w → 1 ≤ h →
    ∃ D : Image, exec (.crop w h) s = .next { s with img := some D, cp := s.cp + 1 } ∧ D.wf ∧ D.w = min w I.w ∧
      D.h = min h I.h ∧ (∀ x y, x < D.w → y < D.h → D.px x y = I.px x y) ∧ (I.w ≤ w → I.h ≤ h → D = I)

/-! ## The convolution commands -/

/-- R201, R204: CONV with a legal kernel replaces each channel by the clamped, rounded sum over the kernel's window of
weight times clamped source pixel, not flipped, and changes nothing else. -/
def Obligations.ConvComputesClampedSums : Prop :=
  ∀ (s : State) (I : Image) (kw kh : Nat), s.phase = .execute → s.img = some I → I.wf → kw = s.kw.toNat →
    kh = s.kh.toNat → kw % 2 = 1 → kh % 2 = 1 → kw ≤ s.params.kmaxDim → kh ≤ s.params.kmaxDim →
    ∃ D : Image, exec .conv s = .next { s with img := some D, cp := s.cp + 1 } ∧ D.wf ∧ D.w = I.w ∧ D.h = I.h ∧
      ∀ (x y : Nat) (c : Pixel → Byte), x < I.w → y < I.h → IsChannel c →
        ((c (D.px x y)).toNat : Int) =
          clamp
            (((∑ j ∈ Finset.Icc (-((kh / 2 : Nat) : Int)) ((kh / 2 : Nat) : Int),
                ∑ i ∈ Finset.Icc (-((kw / 2 : Nat) : Int)) ((kw / 2 : Nat) : Int),
                  asI32 (s.memRead .kmem (4 * ((j + (kh / 2 : Nat)).toNat * kw + (i + (kw / 2 : Nat)).toNat)) 4) *
                    ((c (I.getc (x + i) (y + j))).toNat : Int)) + 32768) / 65536)
            0 255

/-- R207: SHARPEN is five times the pixel less its four clamped neighbours, clamped, in each channel. -/
def Obligations.SharpenIsFiveTimesLessNeighbours : Prop :=
  ∀ (s : State) (I : Image), s.phase = .execute → s.img = some I → I.wf →
    ∃ D : Image, exec .sharpen s = .next { s with img := some D, cp := s.cp + 1 } ∧ D.wf ∧ D.w = I.w ∧ D.h = I.h ∧
      ∀ (x y : Nat) (c : Pixel → Byte) (v : Int → Int → Int), x < I.w → y < I.h → IsChannel c →
        (∀ u w, v u w = ((c (I.getc u w)).toNat : Int)) →
        ((c (D.px x y)).toNat : Int) =
          clamp (5 * v x y - v (x - 1) y - v (x + 1) y - v x (y - 1) - v x (y + 1)) 0 255

/-- R210: EDGE makes a pixel white exactly where the clamped Laplacian of the rounded luma exceeds the threshold, and black
elsewhere, for every threshold. -/
def Obligations.EdgeThresholdsTheLaplacian : Prop :=
  ∀ (s : State) (I : Image) (t : Int), s.phase = .execute → s.img = some I → I.wf →
    ∃ D : Image, exec (.edge t) s = .next { s with img := some D, cp := s.cp + 1 } ∧ D.wf ∧ D.w = I.w ∧ D.h = I.h ∧
      ∀ (x y : Nat) (v : Int → Int → Int), x < I.w → y < I.h →
        (∀ u w, v u w = (luma (I.getc u w) : Int)) →
        D.px x y =
          if clamp (4 * v x y - v (x - 1) y - v (x + 1) y - v x (y - 1) - v x (y + 1)) 0 255 > t then
            { r := 255, g := 255, b := 255 }
          else { r := 0, g := 0, b := 0 }

/-- R215, R217: BLUR fills GW with W_0..W_r and applies the horizontal pass, rounded and clamped to 8 bits, and then the
vertical one to its result. W is the model's own gaussWeights; that these are the weights of R214 is DEDUCED (log 14). -/
def Obligations.BlurIsTwoPasses : Prop :=
  ∀ (s : State) (I : Image) (sigma r : Nat) (W : Int → Int), s.params.Legal → s.phase = .execute → s.img = some I →
    I.wf → 1 ≤ sigma → r = max 1 ((3 * sigma + 255) / 256) → r ≤ s.params.gaussRmax →
    (∀ i : Int, W i = ((gaussWeights sigma).getD i.natAbs 0 : Int)) →
    ∃ (T D : Image) (gw : List Word32),
      exec (.blur sigma) s = .next { s with gw := gw, img := some D, cp := s.cp + 1 } ∧
      (∀ i, i ≤ r → ((gw.getD i 0).toNat : Int) = W i) ∧
      T.wf ∧ T.w = I.w ∧ T.h = I.h ∧ D.wf ∧ D.w = I.w ∧ D.h = I.h ∧
      ∀ (x y : Nat) (c : Pixel → Byte), x < I.w → y < I.h → IsChannel c →
        ((c (T.px x y)).toNat : Int) =
          clamp (((∑ i ∈ Finset.Icc (-(r : Int)) r, W i * ((c (I.getc (x + i) y)).toNat : Int)) + 32768) / 65536)
            0 255 ∧
        ((c (D.px x y)).toNat : Int) =
          clamp (((∑ i ∈ Finset.Icc (-(r : Int)) r, W i * ((c (T.getc x (y + i))).toNat : Int)) + 32768) / 65536)
            0 255

/-- R214, R218 (a): the weights of every legal radius sum to 65536 exactly, so BLUR leaves a uniform image as it is. -/
def Obligations.BlurKeepsUniformImage : Prop :=
  (∀ sigma, 1 ≤ sigma → gaussRadius sigma ≤ 64 →
    (gaussWeights sigma).getD 0 0 + 2 * ((gaussWeights sigma).drop 1).sum = 65536) ∧
  ∀ (s : State) (I : Image) (sigma : Nat) (p : Pixel), s.params.Legal → s.phase = .execute → s.img = some I → I.wf →
    (∀ x y, x < I.w → y < I.h → I.px x y = p) → 1 ≤ sigma → gaussRadius sigma ≤ s.params.gaussRmax →
    ∃ t, exec (.blur sigma) s = .next t ∧ t.img = some I ∧ t.phase = .execute ∧ t.cp = s.cp + 1

/-- R214: where no rounding lies within the allowed error, the integer weights are the real ones of the rule, rounded half
up, for every radius a legal configuration accepts (log 14). -/
def Obligations.GaussWeightsRoundTheRealOnes : Prop :=
  ∀ (sigma r i : Nat) (e : Nat → ℝ) (Z : ℝ), 1 ≤ sigma → r = gaussRadius sigma → r ≤ 64 →
    gaussDecisive sigma = true →
    (∀ k, e k = Real.exp (-(32768 * (k : ℝ) ^ 2) / (sigma : ℝ) ^ 2)) →
    Z = 1 + 2 * ∑ k ∈ Finset.Icc 1 r, e k → 1 ≤ i → i ≤ r →
    ((gaussWeights sigma).getD i 0 : Int) = ⌊65536 * e i / Z + 1 / 2⌋

/-- For every sigma whose radius is at most 64, and so for every sigma a legal configuration accepts, no rounding of R214
lies within the allowed error (93, U18; log 14). -/
def Obligations.GaussRoundingIsDecisive : Prop :=
  ∀ sigma, 1 ≤ sigma → gaussRadius sigma ≤ 64 → gaussDecisive sigma = true

/-! ## The point, neighbourhood and global filters -/

/-- R232, R233, R238: GRAY puts the rounded weighted mean of the channels of each pixel into its three channels, so a gray
pixel stays as it is. -/
def Obligations.GrayWritesLuma : Prop :=
  ∀ (s : State) (I : Image), s.phase = .execute → s.img = some I → I.wf →
    ∃ D : Image, exec .gray s = .next { s with img := some D, cp := s.cp + 1 } ∧ D.wf ∧ D.w = I.w ∧ D.h = I.h ∧
      ∀ x y, x < I.w → y < I.h →
        ((D.px x y).r.toNat : Int) =
          rhu (299 * (I.px x y).r.toNat + 587 * (I.px x y).g.toNat + 114 * (I.px x y).b.toNat) 1000 ∧
        (D.px x y).r = (D.px x y).g ∧ (D.px x y).g = (D.px x y).b ∧
        ((I.px x y).r = (I.px x y).g → (I.px x y).g = (I.px x y).b → D.px x y = I.px x y)

/-- R236: NEG replaces each channel c by 255 - c. -/
def Obligations.NegComplementsChannels : Prop :=
  ∀ (s : State) (I : Image), s.phase = .execute → s.img = some I → I.wf →
    ∃ D : Image, exec .neg s = .next { s with img := some D, cp := s.cp + 1 } ∧ D.wf ∧ D.w = I.w ∧ D.h = I.h ∧
      ∀ (x y : Nat) (c : Pixel → Byte), x < I.w → y < I.h → IsChannel c →
        (c (D.px x y)).toNat = 255 - (c (I.px x y)).toNat

/-- R239: NEG after NEG gives every image back. -/
def Obligations.NegTwiceIsIdentity : Prop :=
  ∀ (s : State) (I : Image), s.phase = .execute → s.img = some I → I.wf →
    ∃ t u, exec .neg s = .next t ∧ exec .neg t = .next u ∧ u.img = some I

/-- R242, R243: each channel of MEDIAN's result is the value of middle rank 2r(r+1) of the (2r+1)² clamped values around
the pixel: it is one of them, more than 2r(r+1) of them are at most it, and at most 2r(r+1) are below it. -/
def Obligations.MedianHasMiddleRank : Prop :=
  ∀ (s : State) (I : Image) (r : Nat), s.phase = .execute → s.img = some I → I.wf → 1 ≤ r →
    r ≤ s.params.medianRmax →
    ∃ D : Image, exec (.median r) s = .next { s with img := some D, cp := s.cp + 1 } ∧ D.wf ∧ D.w = I.w ∧ D.h = I.h ∧
      ∀ (x y m : Nat) (c : Pixel → Byte) (V : Int × Int → Nat) (win : Finset (Int × Int)), x < I.w → y < I.h →
        IsChannel c → m = (c (D.px x y)).toNat → win = Finset.Icc (-(r : Int)) r ×ˢ Finset.Icc (-(r : Int)) r →
        (∀ q, V q = (c (I.getc (x + q.1) (y + q.2))).toNat) →
        (∃ q ∈ win, V q = m) ∧ 2 * r * (r + 1) < (win.filter fun q => V q ≤ m).card ∧
          (win.filter fun q => V q < m).card ≤ 2 * r * (r + 1)

/-- R247, R248: GAMMA fills GAMMA_LUT with 255·(c/255)^(256/g) rounded half up, in real arithmetic, and sends every channel
of every pixel through it. -/
def Obligations.GammaRoundsTheRealPower : Prop :=
  ∀ (s : State) (I : Image) (g : Nat), s.phase = .execute → s.img = some I → I.wf → 1 ≤ g →
    ∃ (D : Image) (lut : List Byte),
      exec (.gamma g) s = .next { s with gammaLut := lut, img := some D, cp := s.cp + 1 } ∧
      lut.length = 256 ∧
      (∀ c : Nat, c ≤ 255 →
        ((lut.getD c 0).toNat : Int) = ⌊255 * ((c : ℝ) / 255) ^ ((256 : ℝ) / (g : ℝ)) + 1 / 2⌋) ∧
      lut.getD 0 0 = 0 ∧ lut.getD 255 0 = 255 ∧ D.wf ∧ D.w = I.w ∧ D.h = I.h ∧
      ∀ (x y : Nat) (c : Pixel → Byte), x < I.w → y < I.h → IsChannel c →
        c (D.px x y) = lut.getD (c (I.px x y)).toNat 0

/-- R251, R252, R254, R255: on an image with more than one luma, HISTEQ counts the lumas, accumulates them, and replaces
each pixel by the gray of its rescaled cumulative count. `below v` is how many pixels have luma at most v, and `lo` how
many have the least luma. -/
def Obligations.HisteqRemapsLumas : Prop :=
  ∀ (s : State) (I : Image) (N lo vmin : Nat) (below : Nat → Nat), s.params.Legal → s.phase = .execute →
    s.img = some I → I.wf → s.params.holds I.w I.h = true → N = I.w * I.h →
    (∀ v, below v =
      ((Finset.range I.w ×ˢ Finset.range I.h).filter fun q => luma (I.px q.1 q.2) ≤ v).card) →
    (∃ x y, x < I.w ∧ y < I.h ∧ luma (I.px x y) = vmin) →
    (∀ x y, x < I.w → y < I.h → vmin ≤ luma (I.px x y)) → lo = below vmin → lo ≠ N →
    ∃ (D : Image) (hist cdf : List Word32) (lut : List Byte),
      exec .histeq s =
        .next { s with hist := hist, cdf := cdf, heqLut := lut, img := some D, cp := s.cp + 1 } ∧
      (∀ v, v < 256 → (cdf.getD v 0).toNat = below v ∧ (hist.getD v 0).toNat =
        ((Finset.range I.w ×ˢ Finset.range I.h).filter fun q => luma (I.px q.1 q.2) = v).card) ∧
      D.wf ∧ D.w = I.w ∧ D.h = I.h ∧
      ∀ x y, x < I.w → y < I.h →
        (D.px x y).r = (D.px x y).g ∧ (D.px x y).g = (D.px x y).b ∧
        (D.px x y).r.toNat = ((below (luma (I.px x y)) - lo) * 510 + (N - lo)) / (2 * (N - lo))

/-- R253: on an image of one luma, HISTEQ leaves the image, with its colours, as it is, and raises nothing. -/
def Obligations.HisteqKeepsOneLumaImage : Prop :=
  ∀ (s : State) (I : Image) (v : Nat), s.params.Legal → s.phase = .execute → s.img = some I → I.wf →
    s.params.holds I.w I.h = true → (∀ x y, x < I.w → y < I.h → luma (I.px x y) = v) →
    ∃ hist cdf : List Word32, exec .histeq s = .next { s with hist := hist, cdf := cdf, cp := s.cp + 1 }

/-! ## Rules over all commands -/

/-- R281: a command that reads the image raises InvalidDimensions in execution when none is held; DECODE and CREATE do
not read it: what they answer when they complete does not depend on the image held. A command in execution has passed its
static check (R271), which the first clause says as a premise. -/
def Obligations.NoImageRaisesInvalidDimensions : Prop :=
  (∀ (s : State) (i : Instr), s.phase = .execute → s.img = none → staticCheck i s = none → i ≠ .decode →
    (∀ w h, i ≠ .create w h) → exec i s = .next (s.endWithError .invalidDimensions s.cp)) ∧
  (∀ (s t : State) (J : Option Image), t.phase = .execute → exec .decode s = .next t →
    exec .decode { s with img := J } = .next t) ∧
  (∀ (s t : State) (J : Option Image) (w h : Nat), s.phase = .execute → t.phase = .execute →
    exec (.create w h) s = .next t → exec (.create w h) { s with img := J } = .next t)

/-- R272: in VALIDATE a command does exactly the static checks of the table, in its order: the first that fails ends the
run with its error, and otherwise CP moves on. A check reads only the command, KCFG and the parameters. -/
def Obligations.StaticChecksFollowTheTable : Prop :=
  (∀ (s : State) (t : Int) (i : Instr), s.phase = .validate →
    i ∈ [.decode, .encode, .sharpen, .gray, .neg, .histeq, .edge t] → exec i s = .next { s with cp := s.cp + 1 }) ∧
  (∀ (s : State) (w h : Nat), s.phase = .validate →
    exec (.create w h) s = .next
      (if w = 0 ∨ h = 0 then s.endWithError .invalidDimensions s.cp
      else if w > s.params.maxW ∨ h > s.params.maxH ∨ w * h > s.params.maxPixels then
        s.endWithError .capacityExceeded s.cp
      else { s with cp := s.cp + 1 })) ∧
  (∀ (s : State), s.phase = .validate →
    exec .conv s = .next
      (if s.kw = 0 ∨ s.kw.toNat % 2 = 0 ∨ s.kh = 0 ∨ s.kh.toNat % 2 = 0 then s.endWithError .invalidParameter s.cp
      else if s.kw.toNat > s.params.kmaxDim ∨ s.kh.toNat > s.params.kmaxDim then
        s.endWithError .capacityExceeded s.cp
      else { s with cp := s.cp + 1 })) ∧
  (∀ (s : State) (sigma : Nat), s.phase = .validate →
    exec (.blur sigma) s = .next
      (if sigma = 0 then s.endWithError .invalidParameter s.cp
      else if (3 * sigma + 255) / 256 > s.params.gaussRmax then s.endWithError .capacityExceeded s.cp
      else { s with cp := s.cp + 1 })) ∧
  (∀ (s : State) (r : Nat), s.phase = .validate →
    exec (.median r) s = .next
      (if r = 0 then s.endWithError .invalidParameter s.cp
      else if r > s.params.medianRmax then s.endWithError .capacityExceeded s.cp
      else { s with cp := s.cp + 1 })) ∧
  (∀ (s : State) (g : Nat), s.phase = .validate →
    exec (.gamma g) s = .next
      (if g = 0 then s.endWithError .invalidParameter s.cp else { s with cp := s.cp + 1 })) ∧
  (∀ (s : State) (w h : Nat), s.phase = .validate →
    exec (.crop w h) s = .next
      (if w = 0 ∨ h = 0 then s.endWithError .invalidParameter s.cp else { s with cp := s.cp + 1 })) ∧
  (∀ (s s' : State) (i : Instr), s.params = s'.params → s.kw = s'.kw → s.kh = s'.kh →
    staticCheck i s = staticCheck i s')

/-- The frame of every command but ENCODE: whatever it answers, no byte of memory changes, no hidden table but its own, and
no register but CP and, when it ends the run, those of R306. -/
def Obligations.ImageCommandsFrame : Prop :=
  ∀ (s t : State) (i : Instr), i ≠ .encode → exec i s = .next t →
    (∀ space a, t.readByte space a = s.readByte space a) ∧
    t.params = s.params ∧ t.cmdLen = s.cmdLen ∧ t.inLen = s.inLen ∧ t.pixX = s.pixX ∧ t.pixY = s.pixY ∧
    t.doneIe = s.doneIe ∧ t.errIe = s.errIe ∧ t.doneIp = s.doneIp ∧ t.kw = s.kw ∧ t.kh = s.kh ∧ t.done = s.done ∧
    t.idxErr = s.idxErr ∧ t.draws = s.draws ∧ t.events = s.events ∧ t.responses = s.responses ∧
    ((∀ g, i ≠ .gamma g) → t.gammaLut = s.gammaLut) ∧
    (i ≠ .histeq → t.hist = s.hist ∧ t.cdf = s.cdf ∧ t.heqLut = s.heqLut) ∧
    ((∀ sigma, i ≠ .blur sigma) → t.gw = s.gw) ∧
    ((t.phase = s.phase ∧ t.err = s.err ∧ t.errIp = s.errIp ∧ t.errCode = s.errCode ∧ t.errCmd = s.errCmd ∧
        t.outLen = s.outLen ∧ t.outValid = s.outValid ∧ t.cp = s.cp + 1) ∨
      ∃ e, t = s.endWithError e s.cp)

/-- R306, with the codes of R301: what the end of a run with an error writes, and that it writes nothing else. -/
def Obligations.ErrorEndWritesExactlyThis : Prop :=
  (∀ (s : State) (k : Word32),
    [ErrKind.formatError, .unsupportedFormat, .truncatedFileError, .invalidDimensions, .invalidParameter,
        .illegalCommand, .capacityExceeded].map (fun e => (s.endWithError e k).errCode.toNat) =
      [1, 2, 3, 4, 5, 7, 8]) ∧
  ∀ (s t : State) (e : ErrKind) (k : Word32), t = s.endWithError e k →
    (t.errCode = e.code ∧ t.errCmd = k ∧ t.cp = (if k = 0xFFFFFFFF then 0 else k) ∧ t.img = none ∧
      t.outValid = false ∧ t.outLen = 0 ∧ t.err = true ∧ t.errIp = true ∧ t.phase = .idle ∧ t.busy = false ∧
      t.done = s.done) ∧
    t.cmdLen = s.cmdLen ∧ t.inLen = s.inLen ∧ t.pixX = s.pixX ∧ t.pixY = s.pixY ∧ t.kw = s.kw ∧ t.kh = s.kh ∧
    t.doneIe = s.doneIe ∧ t.errIe = s.errIe ∧ t.doneIp = s.doneIp ∧ t.idxErr = s.idxErr ∧ t.params = s.params ∧
    t.gammaLut = s.gammaLut ∧ t.hist = s.hist ∧ t.cdf = s.cdf ∧ t.heqLut = s.heqLut ∧ t.gw = s.gw ∧
    t.draws = s.draws ∧ t.events = s.events ∧ t.responses = s.responses ∧
    ∀ space a, t.readByte space a = s.readByte space a

/-! ## Runs -/

/-- R35, R37, R276: a host write to CTRL without SRESET. A busy block ignores it. An idle one clears IDX_ERR when CLR_IDX is
set, then starts a run when START is set; nothing else changes, so a write of 0 does nothing. The write response's data is
0 by log 22. -/
def Obligations.StartThroughCtrl : Prop :=
  ∀ (s t : State) (v : Word32), v.getLsbD 1 = false → t = s.transact (.write s.params.base .w32 v) →
    t.responses = { data := 0, slverr := false } :: s.responses ∧
    (s.phase ≠ .idle → t = { s with responses := t.responses }) ∧
    (s.phase = .idle → v.getLsbD 0 = false →
      t = { s with idxErr := s.idxErr && !v.getLsbD 2, responses := t.responses }) ∧
    (s.phase = .idle → v.getLsbD 0 = true →
      t.busy = true ∧
      t = { s with
        done := false, err := false, outValid := false, errCode := 0, errCmd := 0, outLen := 0, cp := 0
        phase := .validate, idxErr := s.idxErr && !v.getLsbD 2, responses := t.responses })

/-- R277: a CMD_LEN above CMD_CAP ends the run at the start of validation with CapacityExceeded, ERR_CMD = 0xFFFF_FFFF and
CP = 0, and no other engine move reports that ERR_CMD. -/
def Obligations.CommandLengthAboveCapacity : Prop :=
  (∀ s : State, s.phase = .validate → s.params.cmdCap < s.cmdLen.toNat →
    ∃ t, engineMove s = .next t ∧ t.errCode = 8 ∧ t.errCmd = 0xFFFFFFFF ∧ t.cp = 0 ∧ t.err = true ∧ t.phase = .idle) ∧
  (∀ s t : State, s.params.Legal → s.errCmd = 0 → engineMove s = .next t → t.errCmd = 0xFFFFFFFF →
    s.phase = .validate ∧ s.params.cmdCap < s.cmdLen.toNat)

/-- R275: after the last command the run ends with success: CP = CMD_LEN, DONE, DONE_IP, BUSY 0, and nothing else. -/
def Obligations.SuccessEndsTheRun : Prop :=
  ∀ s : State, s.events = [] → s.phase = .execute → s.cmdLen.toNat ≤ s.cp.toNat →
    step s = .next { s with cp := s.cmdLen, done := true, doneIp := true, phase := .idle }

/-- R278: a run of no commands ends with success, CP = 0, the image as it was and no output. -/
def Obligations.EmptyProgramKeepsImage : Prop :=
  ∀ s : State, s.phase = .idle → s.cmdLen = 0 → s.events = [] →
    ∃ n t, Host.Core.run Sys2Proof.core n s.start = .next t ∧ t.cp = 0 ∧ t.done = true ∧ t.err = false ∧
      t.img = s.img ∧ t.outValid = false ∧ t.outLen = 0 ∧ t.phase = .idle

/-- R271, R304: when a slot of the list fails validation and no earlier one does, the run ends there with its error, with no
command executed. That it takes one step for each slot is the model's choice (log 2). -/
def Obligations.StaticErrorsComeFirst : Prop :=
  ∀ (s : State) (k : Nat) (e : ErrKind), s.events = [] → s.phase = .validate → s.cp = 0 →
    s.cmdLen.toNat ≤ s.params.cmdCap → k < s.cmdLen.toNat → (∀ j, j < k → slotError s j = none) →
    slotError s k = some e →
    Host.Core.run Sys2Proof.core (k + 1) s = .next (s.endWithError e (BitVec.ofNat 32 k))

/-- R285: stepping the engine from a start computes the whole run of the spec's two loops (Machine/Run.lean). The bound on
the steps is the model's (log 2). -/
def Obligations.SteppingIsTheWholeRun : Prop :=
  ∀ s : State, s.events = [] → s.phase = .validate → s.cp = 0 →
    ∃ n, n ≤ 2 * s.cmdLen.toNat + 2 ∧ Host.Core.run Sys2Proof.core n s = .next (wholeRun s)

/-- R284, R288: from every good busy state, left to itself, the block is idle after finitely many steps with exactly one of
DONE and ERR set. The bound on the steps is the model's (log 2). -/
def Obligations.EveryRunEnds : Prop :=
  ∀ s : State, Safe s → s.events = [] → s.phase ≠ .idle →
    ∃ n t, n ≤ 2 * s.params.cmdCap + 2 ∧ Host.Core.run Sys2Proof.core n s = .next t ∧ t.phase = .idle ∧
      ((t.done = true ∧ t.err = false) ∨ (t.done = false ∧ t.err = true))

/-! ## Invariants -/

/-- From every good state, whatever event comes, the step answers a next state, which is good: no fault, no refusal. -/
def Obligations.EveryStepKeepsSafe : Prop :=
  ∀ s : State, Safe s → ∃ t, step s = .next t ∧ Safe t

/-- The state after reset is good, and so is the reset state of every legal configuration (log 1). -/
def Obligations.ResetIsSafe : Prop :=
  Safe State.reset ∧ Validated State.reset ∧ ∀ p : Params, p.Legal → Safe { State.reset with params := p }

/-- In every run, each command that executes has passed validation (R271, R273, R304). -/
def Obligations.EveryStepKeepsValidated : Prop :=
  ∀ s t : State, Safe s → Validated s → step s = .next t → Validated t

/-- R60: the invariants a host can observe while BUSY = 0, read through the registers. -/
def Obligations.IdleRegistersAgree : Prop :=
  ∀ s : State, Safe s → s.busy = false →
    (s.img = none ↔ (s.readReg .status).1.getLsbD 3 = false) ∧ (s.img = none ↔ (s.readReg .imgWidth).1 = 0) ∧
    (s.img = none ↔ (s.readReg .imgHeight).1 = 0) ∧
    (∀ I, s.img = some I → 1 ≤ I.w ∧ I.w ≤ s.params.maxW ∧ 1 ≤ I.h ∧ I.h ≤ s.params.maxH ∧
      I.w * I.h ≤ s.params.maxPixels) ∧
    ¬((s.readReg .status).1.getLsbD 1 = true ∧ (s.readReg .status).1.getLsbD 2 = true) ∧
    ((s.readReg .status).1.getLsbD 2 = false → (s.readReg .errCode).1 = 0 ∧ (s.readReg .errCmd).1 = 0) ∧
    ((s.readReg .status).1.getLsbD 4 = true →
      54 ≤ (s.readReg .outLen).1.toNat ∧ (s.readReg .outLen).1.toNat ≤ s.params.outCap ∧
      (s.readReg .status).1.getLsbD 1 = true) ∧
    ((s.readReg .status).1.getLsbD 4 = false → (s.readReg .outLen).1 = 0)

/-- R90, R96: no engine move writes CMD_MEM, KMEM, IN_MEM, KCFG, CMD_LEN or IN_LEN, and only ENCODE's writes OUT_MEM. While
BUSY = 0 the engine changes nothing at all (R89, R145): its move of an idle block, which is the model's own step (log 6),
leaves the whole state. -/
def Obligations.EngineNeverWritesItsInputs : Prop :=
  (∀ s t : State, engineMove s = .next t →
    t.cmdMem = s.cmdMem ∧ t.kmem = s.kmem ∧ t.inMem = s.inMem ∧ t.kw = s.kw ∧ t.kh = s.kh ∧ t.cmdLen = s.cmdLen ∧
      t.inLen = s.inLen ∧ (t.outMem ≠ s.outMem → s.slotCommand s.cp.toNat = .ok .encode ∧ s.phase = .execute)) ∧
  (∀ s : State, s.phase = .idle → engineMove s = .next s)

/-! ## The host port -/

/-- An access that is misaligned or of a width its target does not take completes with SLVERR and changes nothing, and a
read of it answers 0; every other access completes without error (R85). That this holds while BUSY too, and that at an
unmapped offset only alignment counts, is the model's reading (log 16, log 18). The data 0 of a rejected write's response is
log 22, and the offset of an address below BASE is log 23. -/
def Obligations.RejectedAccessHasNoEffect : Prop :=
  ∀ (s : State) (addr d : Word32) (width : Width) (off : Nat), off = s.params.offset addr →
    (if off % width.bytes ≠ 0 ∨ (width ≠ .w32 ∧ off < 0x2000) then
      s.hostRead addr width = ({ data := 0, slverr := true }, s) ∧
        s.hostWrite addr width d = ({ data := 0, slverr := true }, s)
    else (s.hostRead addr width).1.slverr = false ∧ (s.hostWrite addr width d).1.slverr = false)

/-- R59, R81, R84: an access of an unmapped offset, aligned and of a width R85 does not reject, reads 0, changes nothing at
all and completes without error. The data 0 of a write's response is log 22, 8- and 16-bit accesses outside every window
are log 18, and addresses below BASE, whose offset wraps, are log 23. -/
def Obligations.UnmappedReadsZero : Prop :=
  ∀ (s : State) (addr d : Word32) (width : Width) (off : Nat), off = s.params.offset addr → off % width.bytes = 0 →
    (width = .w32 ∨ 0x2000 ≤ off) →
    (off ∈ Finset.Ico 0x58 0x1000 ∨ off ∈ Finset.Ico 0x2000 0x10000 ∨ off ∈ Finset.Ico 0x20000 0x1000000 ∨
      0x3000000 ≤ off ∨ off ∈ Finset.Ico (0x1000000 + s.params.inCap) 0x2000000 ∨
      off ∈ Finset.Ico (0x2000000 + s.params.outCap) 0x3000000 ∨
      off ∈ Finset.Ico (0x10000 + 8 * s.params.cmdCap) 0x20000 ∨
      off ∈ Finset.Ico (0x1000 + 4 * (s.params.kmaxDim * s.params.kmaxDim)) 0x2000) →
    s.hostRead addr width = ({ data := 0, slverr := false }, s) ∧
      (∀ space a, (s.hostWrite addr width d).2.readByte space a = s.readByte space a) ∧
      (s.hostWrite addr width d).1 = { data := 0, slverr := false } ∧
      (Safe s → (s.hostWrite addr width d).2 = s)

/-- R82, R87, R88: while idle, an accepted write of implemented bytes of KMEM, CMD_MEM or IN_MEM is read back little-endian
at the same address and width, and changes no other byte; and an accepted read of implemented bytes of any of the four
memories, OUT_MEM among them (R54, R288), answers those bytes and changes nothing. That the data of an 8- or 16-bit access
stands in the low bits of the data word, with zeros above in a read, is log 22. -/
def Obligations.HostMemoryReadsWhatItWrote : Prop :=
  (∀ (s t : State) (addr d : Word32) (width : Width) (space : Space) (a : Nat), s.busy = false →
    targetOf (s.params.offset addr) = .memory space a → space ≠ .outMem →
    accessOk (s.params.offset addr) width = true → a + width.bytes ≤ s.params.sizeOf space →
    t = (s.hostWrite addr width d).2 →
    (t.hostRead addr width).1 = { data := BitVec.ofNat 32 (d.toNat % 256 ^ width.bytes), slverr := false } ∧
      ∀ space' x, (space' = space → x < a ∨ a + width.bytes ≤ x) → t.readByte space' x = s.readByte space' x) ∧
  (∀ (s : State) (addr : Word32) (width : Width) (space : Space) (a : Nat), s.busy = false →
    targetOf (s.params.offset addr) = .memory space a → accessOk (s.params.offset addr) width = true →
    a + width.bytes ≤ s.params.sizeOf space →
    s.hostRead addr width = ({ data := BitVec.ofNat 32 (s.memRead space a width.bytes), slverr := false }, s))

/-- R86: a host write to an OUT_MEM address is ignored and completes without error. The data 0 of its response is log 22. -/
def Obligations.HostCannotWriteOutMem : Prop :=
  ∀ (s : State) (addr d : Word32) (width : Width) (a : Nat),
    targetOf (s.params.offset addr) = .memory .outMem a → s.params.offset addr % width.bytes = 0 →
    s.hostWrite addr width d = ({ data := 0, slverr := false }, s)

/-- R34-R50, R87: the offsets of the register map; what a write of each register but CTRL and PIX_DATA does, and that it does
nothing else; what the registers then read, less the bits their rows mark 0; and what each reads as it stands, STATUS bit by
bit, without changing anything. IRQ_EN and IRQ_PEND act, and read-only registers ignore a write, while busy too. The data 0
of a write's response is log 22. -/
def Obligations.RegistersReadBack : Prop :=
  (∀ (s : State) (addr d : Word32) (off : Nat) (r : Reg),
    (off, r) ∈ [(0x00, Reg.ctrl), (0x04, .status), (0x08, .errCode), (0x0C, .errCmd), (0x10, .cp), (0x14, .cmdLen),
      (0x18, .inLen), (0x1C, .outLen), (0x20, .imgWidth), (0x24, .imgHeight), (0x28, .pixX), (0x2C, .pixY),
      (0x30, .pixData), (0x34, .irqEn), (0x38, .irqPend), (0x3C, .kcfg), (0x40, .capIn), (0x44, .capOut),
      (0x48, .capCmd), (0x4C, .capDim), (0x50, .capPixels), (0x54, .capK)] →
    s.params.offset addr = off →
    s.hostRead addr .w32 = ({ data := (s.readReg r).1, slverr := false }, (s.readReg r).2) ∧
      s.hostWrite addr .w32 d = ({ data := 0, slverr := false }, s.writeReg r d)) ∧
  (∀ (s : State) (v : Word32), s.busy = false →
    s.writeReg .cmdLen v = { s with cmdLen := v } ∧ s.writeReg .inLen v = { s with inLen := v } ∧
    s.writeReg .pixX v = { s with pixX := v } ∧ s.writeReg .pixY v = { s with pixY := v } ∧
    s.writeReg .kcfg v = { s with kw := v.extractLsb' 0 8, kh := v.extractLsb' 8 8 } ∧
    (∀ r ∈ [Reg.cmdLen, .inLen, .pixX, .pixY], ((s.writeReg r v).readReg r).1 = v) ∧
    ((s.writeReg .kcfg v).readReg .kcfg).1 = v &&& 0xFFFF ∧
    ((s.readReg .status).1.getLsbD 0 = false ∧ (s.readReg .status).1.getLsbD 1 = s.done ∧
      (s.readReg .status).1.getLsbD 2 = s.err ∧ (s.readReg .status).1.getLsbD 3 = s.img.isSome ∧
      (s.readReg .status).1.getLsbD 4 = s.outValid ∧ (s.readReg .status).1.getLsbD 5 = s.idxErr ∧
      (∀ k, 6 ≤ k → (s.readReg .status).1.getLsbD k = false) ∧ (s.readReg .status).2 = s) ∧
    s.readReg .cp = (s.cp, s) ∧ s.readReg .outLen = (s.outLen, s) ∧
    (s.img = none → s.readReg .imgWidth = (0, s) ∧ s.readReg .imgHeight = (0, s)) ∧
    (∀ I, s.img = some I →
      s.readReg .imgWidth = (BitVec.ofNat 32 I.w, s) ∧ s.readReg .imgHeight = (BitVec.ofNat 32 I.h, s))) ∧
  (∀ (s : State) (v : Word32),
    s.writeReg .irqEn v = { s with doneIe := v.getLsbD 0, errIe := v.getLsbD 1 } ∧
    ((s.writeReg .irqEn v).readReg .irqEn).1 = v &&& 3 ∧
    s.writeReg .irqPend v =
      { s with doneIp := s.doneIp && !v.getLsbD 0, errIp := s.errIp && !v.getLsbD 1 } ∧
    ((s.writeReg .irqPend v).readReg .irqPend).1 = (s.readReg .irqPend).1 &&& ~~~v ∧
    (∀ r ∈ [Reg.status, .errCode, .errCmd, .cp, .outLen, .imgWidth, .imgHeight, .capIn, .capOut, .capCmd, .capDim,
      .capPixels, .capK], s.writeReg r v = s) ∧
    s.readReg .ctrl = (0, s) ∧ s.readReg .errCode = (BitVec.ofNat 32 s.errCode.toNat, s) ∧
    s.readReg .errCmd = (s.errCmd, s) ∧ s.readReg .cmdLen = (s.cmdLen, s) ∧ s.readReg .inLen = (s.inLen, s) ∧
    s.readReg .pixX = (s.pixX, s) ∧ s.readReg .pixY = (s.pixY, s) ∧
    s.readReg .irqEn = (BitVec.ofNat 32 (s.doneIe.toNat + 2 * s.errIe.toNat), s) ∧
    s.readReg .irqPend = (BitVec.ofNat 32 (s.doneIp.toNat + 2 * s.errIp.toNat), s) ∧
    s.readReg .kcfg = (BitVec.ofNat 32 (s.kw.toNat + 256 * s.kh.toNat), s) ∧
    s.readReg .capIn = (BitVec.ofNat 32 s.params.inCap, s) ∧ s.readReg .capOut = (BitVec.ofNat 32 s.params.outCap, s) ∧
    s.readReg .capCmd = (BitVec.ofNat 32 s.params.cmdCap, s) ∧
    s.readReg .capDim = (BitVec.ofNat 32 (s.params.maxW + 65536 * s.params.maxH), s) ∧
    s.readReg .capPixels = (BitVec.ofNat 32 s.params.maxPixels, s) ∧
    s.readReg .capK =
      (BitVec.ofNat 32 (s.params.kmaxDim + 256 * s.params.gaussRmax + 65536 * s.params.medianRmax), s))

/-- R88, R349: while busy, a host write changes nothing unless it is a soft reset or a write of IRQ_EN or IRQ_PEND. -/
def Obligations.BusyDropsHostWrites : Prop :=
  ∀ (s : State) (addr d : Word32) (width : Width) (off : Nat), s.busy = true → off = s.params.offset addr →
    ¬(width = .w32 ∧ ((off = 0 ∧ d.getLsbD 1 = true) ∨ off = 0x34 ∨ off = 0x38)) →
    (s.hostWrite addr width d).2 = s

/-- R88, the table's reads: while busy, STATUS reads BUSY 1, DONE 0, ERR 0 and IDX_ERR as it stands; ERR_CODE and ERR_CMD
read 0; the other registers the table calls current read their values; CTRL, PIX_DATA and every byte of every memory window
read 0; CP, OUT_LEN, IMG_WIDTH and IMG_HEIGHT read a free value, and so do the other two bits of STATUS (log 11). None of
these reads changes anything but the count of free values drawn. -/
def Obligations.BusyReads : Prop :=
  ∀ s : State, Safe s → s.busy = true →
    ((s.readReg .status).1.getLsbD 0 = true ∧ (s.readReg .status).1.getLsbD 1 = false ∧
      (s.readReg .status).1.getLsbD 2 = false ∧ (s.readReg .status).1.getLsbD 5 = s.idxErr ∧
      (∀ k, 6 ≤ k → (s.readReg .status).1.getLsbD k = false) ∧
      (s.readReg .status).2 = { s with draws := s.draws + 1 }) ∧
    s.readReg .errCode = (0, s) ∧ s.readReg .errCmd = (0, s) ∧ s.readReg .pixData = (0, s) ∧ s.readReg .ctrl = (0, s) ∧
    s.readReg .cmdLen = (s.cmdLen, s) ∧ s.readReg .inLen = (s.inLen, s) ∧ s.readReg .pixX = (s.pixX, s) ∧
    s.readReg .pixY = (s.pixY, s) ∧
    s.readReg .irqEn = (BitVec.ofNat 32 (s.doneIe.toNat + 2 * s.errIe.toNat), s) ∧
    s.readReg .irqPend = (BitVec.ofNat 32 (s.doneIp.toNat + 2 * s.errIp.toNat), s) ∧
    s.readReg .kcfg = (BitVec.ofNat 32 (s.kw.toNat + 256 * s.kh.toNat), s) ∧
    s.readReg .capIn = (BitVec.ofNat 32 s.params.inCap, s) ∧ s.readReg .capOut = (BitVec.ofNat 32 s.params.outCap, s) ∧
    s.readReg .capCmd = (BitVec.ofNat 32 s.params.cmdCap, s) ∧
    s.readReg .capDim = (BitVec.ofNat 32 (s.params.maxW + 65536 * s.params.maxH), s) ∧
    s.readReg .capPixels = (BitVec.ofNat 32 s.params.maxPixels, s) ∧
    s.readReg .capK =
      (BitVec.ofNat 32 (s.params.kmaxDim + 256 * s.params.gaussRmax + 65536 * s.params.medianRmax), s) ∧
    (∀ r ∈ [Reg.cp, .outLen, .imgWidth, .imgHeight],
      s.readReg r = (Config.unspecifiedWord s.draws, { s with draws := s.draws + 1 })) ∧
    ∀ (addr : Word32) (width : Width) (space : Space) (a : Nat),
      targetOf (s.params.offset addr) = .memory space a → accessOk (s.params.offset addr) width = true →
      s.hostRead addr width = ({ data := 0, slverr := false }, s)

/-- R147, R148, R309: while idle, PIX_DATA reads and replaces the pixel at (PIX_X, PIX_Y); out of bounds or with no image a
read gives 0, a write is dropped, and IDX_ERR is set. No other state changes. -/
def Obligations.PixelPortAccesses : Prop :=
  ∀ (s : State) (v : Word32) (x y : Nat), s.busy = false → x = s.pixX.toNat → y = s.pixY.toNat →
    (∀ I, s.img = some I → I.wf → x < I.w → y < I.h →
      s.readReg .pixData =
        (BitVec.ofNat 32 (65536 * (I.px x y).r.toNat + 256 * (I.px x y).g.toNat + (I.px x y).b.toNat), s) ∧
      ∃ J : Image, s.writeReg .pixData v = { s with img := some J } ∧ J.wf ∧ J.w = I.w ∧ J.h = I.h ∧
        J.px x y = { r := v.extractLsb' 16 8, g := v.extractLsb' 8 8, b := v.extractLsb' 0 8 } ∧
        ∀ x' y', x' < I.w → y' < I.h → (x' ≠ x ∨ y' ≠ y) → J.px x' y' = I.px x' y') ∧
    ((∀ I, s.img = some I → ¬(x < I.w ∧ y < I.h)) →
      s.readReg .pixData = (0, { s with idxErr := true }) ∧ s.writeReg .pixData v = { s with idxErr := true })

/-- R149: IDX_ERR, once set, is cleared by nothing but a reset, a soft reset, or a CTRL write with CLR_IDX while idle. That
a step handles the first event of `events` is the model's choice (log 6). So is the order within a `both` event, the
transaction before the engine move (log 8): with the other order a CLR_IDX at the moment a run ends would find the block
idle, and clear IDX_ERR from a busy `s`. -/
def Obligations.IndexErrorIsSticky : Prop :=
  ∀ s t : State, s.idxErr = true → step s = .next t → t.idxErr = false →
    ∃ e es, s.events = e :: es ∧
      (e = .hardwareReset ∨ e = .powerOn ∨
        ∃ addr d, (e = .host (.write addr .w32 d) ∨ e = .both (.write addr .w32 d)) ∧ s.params.offset addr = 0 ∧
          (d.getLsbD 1 = true ∨ (d.getLsbD 2 = true ∧ s.busy = false)))

/-! ## Interrupts -/

/-- R311: irq is the level of the enabled pending bits. -/
def Obligations.IrqIsALevel : Prop :=
  ∀ s : State, s.irq = true ↔
    (((s.readReg .irqEn).1 &&& (s.readReg .irqPend).1).getLsbD 0 = true ∨
      ((s.readReg .irqEn).1 &&& (s.readReg .irqPend).1).getLsbD 1 = true)

/-- R312: a pending bit is set only by the end of a run, which is an engine move from a busy state to an idle one; every
end of a run sets one, whether or not it is enabled; and a bit is cleared only by a write of 1 to it, a soft reset or a
reset. `u` is the state in which the move of the step is made: `s` when no event is due, `s` with its event popped, or that
state after the transaction of a `both` event, which comes first (log 6, log 8). -/
def Obligations.PendingIsSetByRunEnds : Prop :=
  (∀ s t : State, step s = .next t → (s.doneIp = false ∧ t.doneIp = true ∨ s.errIp = false ∧ t.errIp = true) →
    ∃ u : State,
      ((s.events = [] ∧ u = s) ∨
        ∃ es, (s.events = .engine :: es ∧ u = { s with events := es }) ∨
          ∃ req, s.events = .both req :: es ∧ u = ({ s with events := es } : State).transact req) ∧
      u.phase ≠ .idle ∧ engineMove u = .next t ∧ t.phase = .idle ∧
      (s.doneIp = false → t.doneIp = true → t = u.endWithSuccess) ∧
      (s.errIp = false → t.errIp = true → ∃ e k, t = u.endWithError e k)) ∧
  (∀ u t : State, u.phase ≠ .idle → engineMove u = .next t → t.phase = .idle →
    (t = u.endWithSuccess ∧ t.doneIp = true ∧ t.errIp = u.errIp) ∨
      ∃ e k, t = u.endWithError e k ∧ t.errIp = true ∧ t.doneIp = u.doneIp) ∧
  (∀ (s t : State) (k : Nat), step s = .next t →
    (k = 0 ∧ s.doneIp = true ∧ t.doneIp = false) ∨ (k = 1 ∧ s.errIp = true ∧ t.errIp = false) →
    ∃ e es, s.events = e :: es ∧
      (e = .hardwareReset ∨ e = .powerOn ∨
        ∃ addr d, (e = .host (.write addr .w32 d) ∨ e = .both (.write addr .w32 d)) ∧
          ((s.params.offset addr = 0 ∧ d.getLsbD 1 = true) ∨ (s.params.offset addr = 0x38 ∧ d.getLsbD k = true))))

/-- R49, R305, R313: a host write and an engine move at the same moment. When the write is of IRQ_PEND and the move ends the
run, the bit that the end sets ends at 1 and the other is cleared as written; when the write is a soft reset, the reset
wins and no end happens. The event that joins the two is the model's (log 6), and so is their order within it (log 8). -/
def Obligations.SetWinsOverClear : Prop :=
  (∀ (s : State) (addr d : Word32) (es : List Event), s.events = .both (.write addr .w32 d) :: es →
    s.params.offset addr = 0x38 → s.phase = .execute → s.cmdLen.toNat ≤ s.cp.toNat →
    ∃ t, step s = .next t ∧ t.doneIp = true ∧ t.phase = .idle ∧ t.errIp = (s.errIp && !d.getLsbD 1)) ∧
  (∀ (s u : State) (addr d : Word32) (es : List Event), Safe s → s.events = .both (.write addr .w32 d) :: es →
    s.params.offset addr = 0x38 → s.phase ≠ .idle → engineMove { s with events := es } = .next u → u.err = true →
    ∃ t, step s = .next t ∧ t.errIp = true ∧ t.err = true ∧ t.phase = .idle ∧ t.errCode = u.errCode ∧
      t.errCmd = u.errCmd ∧ t.doneIp = (s.doneIp && !d.getLsbD 0)) ∧
  (∀ (s : State) (addr d : Word32) (es : List Event), s.events = .both (.write addr .w32 d) :: es →
    s.params.offset addr = 0 → d.getLsbD 1 = true →
    ∃ t, step s = .next t ∧ t.phase = .idle ∧ t.done = false ∧ t.err = false ∧ t.doneIp = false ∧ t.errIp = false ∧
      t.img = none)

/-! ## Reset -/

/-- R320, R341, R342: after a hardware reset or a power-on, at any time, every register reads its reset value, no image is
held, no run is in progress and irq is deasserted. After a power-on every byte of every memory is a free value of a fresh
draw (U2; log 9); a hardware reset of an idle block keeps every byte. That both are events of `events` is the model's (log
6). State.reset is such a state; that its parameters are those of REF is the model's choice (log 1). -/
def Obligations.ResetValues : Prop :=
  (∀ r ∈ [Reg.ctrl, .status, .errCode, .errCmd, .cp, .cmdLen, .inLen, .outLen, .imgWidth, .imgHeight, .pixX, .pixY,
    .irqEn, .irqPend, .kcfg], State.reset.readReg r = (0, State.reset)) ∧
  State.reset.img = none ∧ State.reset.phase = .idle ∧ State.reset.irq = false ∧
  (State.reset.readReg .capIn).1 = 4194304 ∧ (State.reset.readReg .capOut).1 = 4194304 ∧
  (State.reset.readReg .capCmd).1 = 256 ∧ (State.reset.readReg .capDim).1 = 0x04000400 ∧
  (State.reset.readReg .capPixels).1 = 1048576 ∧ (State.reset.readReg .capK).1 = 0x0007200F ∧
  (∀ space, ∃ n, ∀ a, State.reset.readByte space a = Config.drawnByte space n a) ∧
  ∀ (s : State) (e : Event) (es : List Event), s.events = e :: es → e = .hardwareReset ∨ e = .powerOn →
    ∃ t, step s = .next t ∧
      (∀ r ∈ [Reg.ctrl, .status, .errCode, .errCmd, .cp, .cmdLen, .inLen, .outLen, .imgWidth, .imgHeight, .pixX, .pixY,
        .irqEn, .irqPend, .kcfg], t.readReg r = (0, t)) ∧
      t.img = none ∧ t.phase = .idle ∧ t.irq = false ∧ t.params = s.params ∧ t.events = es ∧
      (e = .powerOn → t.draws = s.draws + 1 ∧
        ∀ space a, t.readByte space a = Config.drawnByte space s.draws a) ∧
      (e = .hardwareReset → s.busy = false → ∀ space a, t.readByte space a = s.readByte space a)

/-- R343: a CTRL write with SRESET gives every register, IMG and PHASE its reset value whatever its START and CLR_IDX bits
say, and while idle keeps every byte of memory. -/
def Obligations.SoftResetClearsRegisters : Prop :=
  ∀ (s t : State) (v : Word32), v.getLsbD 1 = true → t = s.writeReg .ctrl v →
    (∀ r ∈ [Reg.ctrl, .status, .errCode, .errCmd, .cp, .cmdLen, .inLen, .outLen, .imgWidth, .imgHeight, .pixX, .pixY,
      .irqEn, .irqPend, .kcfg], t.readReg r = (0, t)) ∧
    t.img = none ∧ t.phase = .idle ∧ t.irq = false ∧ t.params = s.params ∧
    (s.busy = false → ∀ space a, t.readByte space a = s.readByte space a)

/-- R305, R343, R344: a hardware reset while busy, or a CTRL write with SRESET, even at the moment of an engine move,
abandons the run: the registers are as after reset, so that ERR stays 0 and ERR_IP is not set; CMD_MEM, IN_MEM and KMEM keep
their bytes, and OUT_MEM keeps its bytes unless the list contains an ENCODE; then every byte of it is a free value. That
"the run contained an ENCODE" is read over the command list is the model's choice (log 10), and so are the events (log 6)
and the order within the moment (log 8). -/
def Obligations.ResetAbandonsTheRun : Prop :=
  ∀ (s : State) (e : Event) (es : List Event), s.busy = true → s.events = e :: es →
    (e = .hardwareReset ∨ ∃ addr d, (e = .host (.write addr .w32 d) ∨ e = .both (.write addr .w32 d)) ∧
      s.params.offset addr = 0 ∧ d.getLsbD 1 = true) →
    ∃ t, step s = .next t ∧
      (∀ r ∈ [Reg.ctrl, .status, .errCode, .errCmd, .cp, .cmdLen, .inLen, .outLen, .imgWidth, .imgHeight, .pixX, .pixY,
        .irqEn, .irqPend, .kcfg], t.readReg r = (0, t)) ∧
      t.err = false ∧ t.errIp = false ∧ t.done = false ∧ t.doneIp = false ∧ t.phase = .idle ∧ t.img = none ∧
      t.irq = false ∧ t.params = s.params ∧ t.cmdMem = s.cmdMem ∧ t.inMem = s.inMem ∧ t.kmem = s.kmem ∧
      ((∃ k, k < s.cmdLen.toNat ∧ k < s.params.cmdCap ∧ s.slotCommand k = .ok .encode) →
        ∀ a, t.readByte .outMem a = Config.drawnByte .outMem s.draws a) ∧
      ((∀ k, k < s.cmdLen.toNat → k < s.params.cmdCap → s.slotCommand k ≠ .ok .encode) → t.outMem = s.outMem)
end

