-- ==== Sys2Proof/Laws/Image.lean ====
section
/-! SUPPORT. The laws of images: what `newImage` holds, that every image an operation builds is a full grid, and what the
pixel port's `set` does. -/

namespace Sys2Proof.Machine

@[simp] theorem newImage_w (w h : Nat) (f : Nat → Nat → Pixel) : (newImage w h f).w = w := rfl

@[simp] theorem newImage_h (w h : Nat) (f : Nat → Nat → Pixel) : (newImage w h f).h = h := rfl

/-- A pixel of `new_image(w, h, f)` is what `f` gives (R15). -/
theorem newImage_px {w h : Nat} (f : Nat → Nat → Pixel) {x y : Nat} (hx : x < w) (hy : y < h) :
    (newImage w h f).px x y = f x y := by
  simp [Image.px, newImage, List.getD_eq_getElem?_getD, hx, hy]

/-- `new_image(w, h, f)` of a size of at least 1 by 1 is a full grid (R15). -/
theorem newImage_wf {w h : Nat} (f : Nat → Nat → Pixel) (hw : 1 ≤ w) (hh : 1 ≤ h) : (newImage w h f).wf := by
  refine ⟨hw, hh, by simp [newImage], ?_⟩
  intro row hrow
  simp only [newImage, List.mem_map] at hrow
  obtain ⟨y, -, rfl⟩ := hrow
  simp [newImage]

/-- Two images with the same size and the same pixels are the same image. -/
theorem Image.ext_px {I J : Image} (hI : I.wf) (hJ : J.wf) (hw : I.w = J.w) (hh : I.h = J.h)
    (hp : ∀ x y, x < I.w → y < I.h → I.px x y = J.px x y) : I = J := by
  obtain ⟨wI, hI', rI⟩ := I
  obtain ⟨wJ, hJ', rJ⟩ := J
  obtain ⟨-, -, hlI, hrI⟩ := hI
  obtain ⟨-, -, hlJ, hrJ⟩ := hJ
  simp only at hw hh hlI hrI hlJ hrJ hp
  subst hw hh
  congr 1
  refine List.ext_getElem (by omega) fun y h1 h2 => ?_
  have e1 := hrI _ (List.getElem_mem h1)
  have e2 := hrJ _ (List.getElem_mem h2)
  refine List.ext_getElem (by omega) fun x h3 h4 => ?_
  have := hp x y (by omega) (by omega)
  simpa [Image.px, List.getD_eq_getElem?_getD, List.getElem?_eq_getElem h1, List.getElem?_eq_getElem h2,
    List.getElem?_eq_getElem h3, List.getElem?_eq_getElem h4] using this

/-- A full grid is the `newImage` of its own pixels. -/
theorem Image.eq_newImage {I : Image} (h : I.wf) : I = newImage I.w I.h I.px :=
  Image.ext_px h (newImage_wf _ h.1 h.2.1) rfl rfl fun _ _ hx hy => (newImage_px I.px hx hy).symm

/-- What `set` can do: in bounds, the image with one pixel replaced; out of bounds, IndexError (R141). -/
theorem Image.set?_cases (I : Image) (x y : Nat) (p : Pixel) :
    (x < I.w ∧ y < I.h ∧ I.set? x y p = some { I with rows := I.rows.set y ((I.rows.getD y []).set x p) }) ∨
      (¬(x < I.w ∧ y < I.h) ∧ I.set? x y p = none) := by
  by_cases h : x < I.w ∧ y < I.h
  · exact .inl ⟨h.1, h.2, by simp [Image.set?, h]⟩
  · exact .inr ⟨h, by simp [Image.set?, h]⟩

/-- `set` keeps the size and the form (R141). -/
theorem Image.set?_wf {I J : Image} {x y : Nat} {p : Pixel} (hI : I.wf) (h : I.set? x y p = some J) :
    J.wf ∧ J.w = I.w ∧ J.h = I.h := by
  rcases I.set?_cases x y p with ⟨hx, hy, he⟩ | ⟨-, he⟩
  · rw [he] at h
    obtain rfl := Option.some.inj h
    obtain ⟨hw, hh, hl, hr⟩ := hI
    refine ⟨⟨hw, hh, by simpa using hl, ?_⟩, rfl, rfl⟩
    intro row hrow
    rcases List.mem_or_eq_of_mem_set hrow with hm | rfl
    · exact hr row hm
    · have hy' : y < I.rows.length := by omega
      rw [List.length_set, List.getD_eq_getElem?_getD, List.getElem?_eq_getElem hy']
      exact hr _ (List.getElem_mem hy')
  · rw [he] at h
    cases h

/-- `get` gives the pixel in bounds and IndexError out of bounds (R140). -/
theorem Image.get?_cases (I : Image) (x y : Nat) :
    (x < I.w ∧ y < I.h ∧ I.get? x y = some (I.px x y)) ∨ (¬(x < I.w ∧ y < I.h) ∧ I.get? x y = none) := by
  by_cases h : x < I.w ∧ y < I.h
  · exact .inl ⟨h.1, h.2, by simp [Image.get?, h]⟩
  · exact .inr ⟨h, by simp [Image.get?, h]⟩

/-- A convolution keeps the size (R201). -/
@[simp] theorem conv_w (S : Image) (kh kw : Nat) (K : Nat → Nat → Int) : (conv S kh kw K).w = S.w := rfl

@[simp] theorem conv_h (S : Image) (kh kw : Nat) (K : Nat → Nat → Int) : (conv S kh kw K).h = S.h := rfl

/-- Every convolution of a full grid is a full grid. -/
theorem conv_wf {S : Image} (h : S.wf) (kh kw : Nat) (K : Nat → Nat → Int) : (conv S kh kw K).wf :=
  newImage_wf _ h.1 h.2.1

end Sys2Proof.Machine
end

