-- ==== Sys2Proof/Laws/State.lean ====
section
/-! SUPPORT. For each update of State, what it leaves in each field: one lemma per field, true by rfl. -/

namespace Sys2Proof.Machine

variable (s : State)

/-! ## The end of a run with an error (R306) -/

@[simp] theorem State.endWithError_params (e : ErrKind) (k : Word32) : (s.endWithError e k).params = s.params := rfl
@[simp] theorem State.endWithError_cmdLen (e : ErrKind) (k : Word32) : (s.endWithError e k).cmdLen = s.cmdLen := rfl
@[simp] theorem State.endWithError_inLen (e : ErrKind) (k : Word32) : (s.endWithError e k).inLen = s.inLen := rfl
@[simp] theorem State.endWithError_outLen (e : ErrKind) (k : Word32) : (s.endWithError e k).outLen = 0 := rfl
@[simp] theorem State.endWithError_pixX (e : ErrKind) (k : Word32) : (s.endWithError e k).pixX = s.pixX := rfl
@[simp] theorem State.endWithError_pixY (e : ErrKind) (k : Word32) : (s.endWithError e k).pixY = s.pixY := rfl
@[simp] theorem State.endWithError_doneIe (e : ErrKind) (k : Word32) : (s.endWithError e k).doneIe = s.doneIe := rfl
@[simp] theorem State.endWithError_errIe (e : ErrKind) (k : Word32) : (s.endWithError e k).errIe = s.errIe := rfl
@[simp] theorem State.endWithError_doneIp (e : ErrKind) (k : Word32) : (s.endWithError e k).doneIp = s.doneIp := rfl
@[simp] theorem State.endWithError_errIp (e : ErrKind) (k : Word32) : (s.endWithError e k).errIp = true := rfl
@[simp] theorem State.endWithError_kw (e : ErrKind) (k : Word32) : (s.endWithError e k).kw = s.kw := rfl
@[simp] theorem State.endWithError_kh (e : ErrKind) (k : Word32) : (s.endWithError e k).kh = s.kh := rfl
@[simp] theorem State.endWithError_done (e : ErrKind) (k : Word32) : (s.endWithError e k).done = s.done := rfl
@[simp] theorem State.endWithError_err (e : ErrKind) (k : Word32) : (s.endWithError e k).err = true := rfl
@[simp] theorem State.endWithError_outValid (e : ErrKind) (k : Word32) : (s.endWithError e k).outValid = false := rfl
@[simp] theorem State.endWithError_idxErr (e : ErrKind) (k : Word32) : (s.endWithError e k).idxErr = s.idxErr := rfl
@[simp] theorem State.endWithError_errCode (e : ErrKind) (k : Word32) : (s.endWithError e k).errCode = e.code := rfl
@[simp] theorem State.endWithError_errCmd (e : ErrKind) (k : Word32) : (s.endWithError e k).errCmd = k := rfl
@[simp] theorem State.endWithError_cp (e : ErrKind) (k : Word32) : (s.endWithError e k).cp = if k = noCommand then 0 else k := rfl
@[simp] theorem State.endWithError_phase (e : ErrKind) (k : Word32) : (s.endWithError e k).phase = .idle := rfl
@[simp] theorem State.endWithError_img (e : ErrKind) (k : Word32) : (s.endWithError e k).img = none := rfl
@[simp] theorem State.endWithError_kmem (e : ErrKind) (k : Word32) : (s.endWithError e k).kmem = s.kmem := rfl
@[simp] theorem State.endWithError_cmdMem (e : ErrKind) (k : Word32) : (s.endWithError e k).cmdMem = s.cmdMem := rfl
@[simp] theorem State.endWithError_inMem (e : ErrKind) (k : Word32) : (s.endWithError e k).inMem = s.inMem := rfl
@[simp] theorem State.endWithError_outMem (e : ErrKind) (k : Word32) : (s.endWithError e k).outMem = s.outMem := rfl
@[simp] theorem State.endWithError_gammaLut (e : ErrKind) (k : Word32) : (s.endWithError e k).gammaLut = s.gammaLut := rfl
@[simp] theorem State.endWithError_hist (e : ErrKind) (k : Word32) : (s.endWithError e k).hist = s.hist := rfl
@[simp] theorem State.endWithError_cdf (e : ErrKind) (k : Word32) : (s.endWithError e k).cdf = s.cdf := rfl
@[simp] theorem State.endWithError_heqLut (e : ErrKind) (k : Word32) : (s.endWithError e k).heqLut = s.heqLut := rfl
@[simp] theorem State.endWithError_gw (e : ErrKind) (k : Word32) : (s.endWithError e k).gw = s.gw := rfl
@[simp] theorem State.endWithError_draws (e : ErrKind) (k : Word32) : (s.endWithError e k).draws = s.draws := rfl
@[simp] theorem State.endWithError_events (e : ErrKind) (k : Word32) : (s.endWithError e k).events = s.events := rfl
@[simp] theorem State.endWithError_responses (e : ErrKind) (k : Word32) : (s.endWithError e k).responses = s.responses := rfl

/-! ## The end of a run with success (R275) -/

@[simp] theorem State.endWithSuccess_params : (s.endWithSuccess).params = s.params := rfl
@[simp] theorem State.endWithSuccess_cmdLen : (s.endWithSuccess).cmdLen = s.cmdLen := rfl
@[simp] theorem State.endWithSuccess_inLen : (s.endWithSuccess).inLen = s.inLen := rfl
@[simp] theorem State.endWithSuccess_outLen : (s.endWithSuccess).outLen = s.outLen := rfl
@[simp] theorem State.endWithSuccess_pixX : (s.endWithSuccess).pixX = s.pixX := rfl
@[simp] theorem State.endWithSuccess_pixY : (s.endWithSuccess).pixY = s.pixY := rfl
@[simp] theorem State.endWithSuccess_doneIe : (s.endWithSuccess).doneIe = s.doneIe := rfl
@[simp] theorem State.endWithSuccess_errIe : (s.endWithSuccess).errIe = s.errIe := rfl
@[simp] theorem State.endWithSuccess_doneIp : (s.endWithSuccess).doneIp = true := rfl
@[simp] theorem State.endWithSuccess_errIp : (s.endWithSuccess).errIp = s.errIp := rfl
@[simp] theorem State.endWithSuccess_kw : (s.endWithSuccess).kw = s.kw := rfl
@[simp] theorem State.endWithSuccess_kh : (s.endWithSuccess).kh = s.kh := rfl
@[simp] theorem State.endWithSuccess_done : (s.endWithSuccess).done = true := rfl
@[simp] theorem State.endWithSuccess_err : (s.endWithSuccess).err = s.err := rfl
@[simp] theorem State.endWithSuccess_outValid : (s.endWithSuccess).outValid = s.outValid := rfl
@[simp] theorem State.endWithSuccess_idxErr : (s.endWithSuccess).idxErr = s.idxErr := rfl
@[simp] theorem State.endWithSuccess_errCode : (s.endWithSuccess).errCode = s.errCode := rfl
@[simp] theorem State.endWithSuccess_errCmd : (s.endWithSuccess).errCmd = s.errCmd := rfl
@[simp] theorem State.endWithSuccess_cp : (s.endWithSuccess).cp = s.cmdLen := rfl
@[simp] theorem State.endWithSuccess_phase : (s.endWithSuccess).phase = .idle := rfl
@[simp] theorem State.endWithSuccess_img : (s.endWithSuccess).img = s.img := rfl
@[simp] theorem State.endWithSuccess_kmem : (s.endWithSuccess).kmem = s.kmem := rfl
@[simp] theorem State.endWithSuccess_cmdMem : (s.endWithSuccess).cmdMem = s.cmdMem := rfl
@[simp] theorem State.endWithSuccess_inMem : (s.endWithSuccess).inMem = s.inMem := rfl
@[simp] theorem State.endWithSuccess_outMem : (s.endWithSuccess).outMem = s.outMem := rfl
@[simp] theorem State.endWithSuccess_gammaLut : (s.endWithSuccess).gammaLut = s.gammaLut := rfl
@[simp] theorem State.endWithSuccess_hist : (s.endWithSuccess).hist = s.hist := rfl
@[simp] theorem State.endWithSuccess_cdf : (s.endWithSuccess).cdf = s.cdf := rfl
@[simp] theorem State.endWithSuccess_heqLut : (s.endWithSuccess).heqLut = s.heqLut := rfl
@[simp] theorem State.endWithSuccess_gw : (s.endWithSuccess).gw = s.gw := rfl
@[simp] theorem State.endWithSuccess_draws : (s.endWithSuccess).draws = s.draws := rfl
@[simp] theorem State.endWithSuccess_events : (s.endWithSuccess).events = s.events := rfl
@[simp] theorem State.endWithSuccess_responses : (s.endWithSuccess).responses = s.responses := rfl

/-! ## The change to EXECUTE (R271) -/

@[simp] theorem State.beginExecution_params : (s.beginExecution).params = s.params := rfl
@[simp] theorem State.beginExecution_cmdLen : (s.beginExecution).cmdLen = s.cmdLen := rfl
@[simp] theorem State.beginExecution_inLen : (s.beginExecution).inLen = s.inLen := rfl
@[simp] theorem State.beginExecution_outLen : (s.beginExecution).outLen = s.outLen := rfl
@[simp] theorem State.beginExecution_pixX : (s.beginExecution).pixX = s.pixX := rfl
@[simp] theorem State.beginExecution_pixY : (s.beginExecution).pixY = s.pixY := rfl
@[simp] theorem State.beginExecution_doneIe : (s.beginExecution).doneIe = s.doneIe := rfl
@[simp] theorem State.beginExecution_errIe : (s.beginExecution).errIe = s.errIe := rfl
@[simp] theorem State.beginExecution_doneIp : (s.beginExecution).doneIp = s.doneIp := rfl
@[simp] theorem State.beginExecution_errIp : (s.beginExecution).errIp = s.errIp := rfl
@[simp] theorem State.beginExecution_kw : (s.beginExecution).kw = s.kw := rfl
@[simp] theorem State.beginExecution_kh : (s.beginExecution).kh = s.kh := rfl
@[simp] theorem State.beginExecution_done : (s.beginExecution).done = s.done := rfl
@[simp] theorem State.beginExecution_err : (s.beginExecution).err = s.err := rfl
@[simp] theorem State.beginExecution_outValid : (s.beginExecution).outValid = s.outValid := rfl
@[simp] theorem State.beginExecution_idxErr : (s.beginExecution).idxErr = s.idxErr := rfl
@[simp] theorem State.beginExecution_errCode : (s.beginExecution).errCode = s.errCode := rfl
@[simp] theorem State.beginExecution_errCmd : (s.beginExecution).errCmd = s.errCmd := rfl
@[simp] theorem State.beginExecution_cp : (s.beginExecution).cp = 0 := rfl
@[simp] theorem State.beginExecution_phase : (s.beginExecution).phase = .execute := rfl
@[simp] theorem State.beginExecution_img : (s.beginExecution).img = s.img := rfl
@[simp] theorem State.beginExecution_kmem : (s.beginExecution).kmem = s.kmem := rfl
@[simp] theorem State.beginExecution_cmdMem : (s.beginExecution).cmdMem = s.cmdMem := rfl
@[simp] theorem State.beginExecution_inMem : (s.beginExecution).inMem = s.inMem := rfl
@[simp] theorem State.beginExecution_outMem : (s.beginExecution).outMem = s.outMem := rfl
@[simp] theorem State.beginExecution_gammaLut : (s.beginExecution).gammaLut = s.gammaLut := rfl
@[simp] theorem State.beginExecution_hist : (s.beginExecution).hist = s.hist := rfl
@[simp] theorem State.beginExecution_cdf : (s.beginExecution).cdf = s.cdf := rfl
@[simp] theorem State.beginExecution_heqLut : (s.beginExecution).heqLut = s.heqLut := rfl
@[simp] theorem State.beginExecution_gw : (s.beginExecution).gw = s.gw := rfl
@[simp] theorem State.beginExecution_draws : (s.beginExecution).draws = s.draws := rfl
@[simp] theorem State.beginExecution_events : (s.beginExecution).events = s.events := rfl
@[simp] theorem State.beginExecution_responses : (s.beginExecution).responses = s.responses := rfl

/-! ## START (R276) -/

@[simp] theorem State.start_params : (s.start).params = s.params := rfl
@[simp] theorem State.start_cmdLen : (s.start).cmdLen = s.cmdLen := rfl
@[simp] theorem State.start_inLen : (s.start).inLen = s.inLen := rfl
@[simp] theorem State.start_outLen : (s.start).outLen = 0 := rfl
@[simp] theorem State.start_pixX : (s.start).pixX = s.pixX := rfl
@[simp] theorem State.start_pixY : (s.start).pixY = s.pixY := rfl
@[simp] theorem State.start_doneIe : (s.start).doneIe = s.doneIe := rfl
@[simp] theorem State.start_errIe : (s.start).errIe = s.errIe := rfl
@[simp] theorem State.start_doneIp : (s.start).doneIp = s.doneIp := rfl
@[simp] theorem State.start_errIp : (s.start).errIp = s.errIp := rfl
@[simp] theorem State.start_kw : (s.start).kw = s.kw := rfl
@[simp] theorem State.start_kh : (s.start).kh = s.kh := rfl
@[simp] theorem State.start_done : (s.start).done = false := rfl
@[simp] theorem State.start_err : (s.start).err = false := rfl
@[simp] theorem State.start_outValid : (s.start).outValid = false := rfl
@[simp] theorem State.start_idxErr : (s.start).idxErr = s.idxErr := rfl
@[simp] theorem State.start_errCode : (s.start).errCode = 0 := rfl
@[simp] theorem State.start_errCmd : (s.start).errCmd = 0 := rfl
@[simp] theorem State.start_cp : (s.start).cp = 0 := rfl
@[simp] theorem State.start_phase : (s.start).phase = .validate := rfl
@[simp] theorem State.start_img : (s.start).img = s.img := rfl
@[simp] theorem State.start_kmem : (s.start).kmem = s.kmem := rfl
@[simp] theorem State.start_cmdMem : (s.start).cmdMem = s.cmdMem := rfl
@[simp] theorem State.start_inMem : (s.start).inMem = s.inMem := rfl
@[simp] theorem State.start_outMem : (s.start).outMem = s.outMem := rfl
@[simp] theorem State.start_gammaLut : (s.start).gammaLut = s.gammaLut := rfl
@[simp] theorem State.start_hist : (s.start).hist = s.hist := rfl
@[simp] theorem State.start_cdf : (s.start).cdf = s.cdf := rfl
@[simp] theorem State.start_heqLut : (s.start).heqLut = s.heqLut := rfl
@[simp] theorem State.start_gw : (s.start).gw = s.gw := rfl
@[simp] theorem State.start_draws : (s.start).draws = s.draws := rfl
@[simp] theorem State.start_events : (s.start).events = s.events := rfl
@[simp] theorem State.start_responses : (s.start).responses = s.responses := rfl

/-! ## CP moves on (R274) -/

@[simp] theorem State.advance_params : (s.advance).params = s.params := rfl
@[simp] theorem State.advance_cmdLen : (s.advance).cmdLen = s.cmdLen := rfl
@[simp] theorem State.advance_inLen : (s.advance).inLen = s.inLen := rfl
@[simp] theorem State.advance_outLen : (s.advance).outLen = s.outLen := rfl
@[simp] theorem State.advance_pixX : (s.advance).pixX = s.pixX := rfl
@[simp] theorem State.advance_pixY : (s.advance).pixY = s.pixY := rfl
@[simp] theorem State.advance_doneIe : (s.advance).doneIe = s.doneIe := rfl
@[simp] theorem State.advance_errIe : (s.advance).errIe = s.errIe := rfl
@[simp] theorem State.advance_doneIp : (s.advance).doneIp = s.doneIp := rfl
@[simp] theorem State.advance_errIp : (s.advance).errIp = s.errIp := rfl
@[simp] theorem State.advance_kw : (s.advance).kw = s.kw := rfl
@[simp] theorem State.advance_kh : (s.advance).kh = s.kh := rfl
@[simp] theorem State.advance_done : (s.advance).done = s.done := rfl
@[simp] theorem State.advance_err : (s.advance).err = s.err := rfl
@[simp] theorem State.advance_outValid : (s.advance).outValid = s.outValid := rfl
@[simp] theorem State.advance_idxErr : (s.advance).idxErr = s.idxErr := rfl
@[simp] theorem State.advance_errCode : (s.advance).errCode = s.errCode := rfl
@[simp] theorem State.advance_errCmd : (s.advance).errCmd = s.errCmd := rfl
@[simp] theorem State.advance_cp : (s.advance).cp = s.cp + 1 := rfl
@[simp] theorem State.advance_phase : (s.advance).phase = s.phase := rfl
@[simp] theorem State.advance_img : (s.advance).img = s.img := rfl
@[simp] theorem State.advance_kmem : (s.advance).kmem = s.kmem := rfl
@[simp] theorem State.advance_cmdMem : (s.advance).cmdMem = s.cmdMem := rfl
@[simp] theorem State.advance_inMem : (s.advance).inMem = s.inMem := rfl
@[simp] theorem State.advance_outMem : (s.advance).outMem = s.outMem := rfl
@[simp] theorem State.advance_gammaLut : (s.advance).gammaLut = s.gammaLut := rfl
@[simp] theorem State.advance_hist : (s.advance).hist = s.hist := rfl
@[simp] theorem State.advance_cdf : (s.advance).cdf = s.cdf := rfl
@[simp] theorem State.advance_heqLut : (s.advance).heqLut = s.heqLut := rfl
@[simp] theorem State.advance_gw : (s.advance).gw = s.gw := rfl
@[simp] theorem State.advance_draws : (s.advance).draws = s.draws := rfl
@[simp] theorem State.advance_events : (s.advance).events = s.events := rfl
@[simp] theorem State.advance_responses : (s.advance).responses = s.responses := rfl

/-! ## The registers at reset (R341) -/

@[simp] theorem State.resetRegisters_params : (s.resetRegisters).params = s.params := rfl
@[simp] theorem State.resetRegisters_cmdLen : (s.resetRegisters).cmdLen = 0 := rfl
@[simp] theorem State.resetRegisters_inLen : (s.resetRegisters).inLen = 0 := rfl
@[simp] theorem State.resetRegisters_outLen : (s.resetRegisters).outLen = 0 := rfl
@[simp] theorem State.resetRegisters_pixX : (s.resetRegisters).pixX = 0 := rfl
@[simp] theorem State.resetRegisters_pixY : (s.resetRegisters).pixY = 0 := rfl
@[simp] theorem State.resetRegisters_doneIe : (s.resetRegisters).doneIe = false := rfl
@[simp] theorem State.resetRegisters_errIe : (s.resetRegisters).errIe = false := rfl
@[simp] theorem State.resetRegisters_doneIp : (s.resetRegisters).doneIp = false := rfl
@[simp] theorem State.resetRegisters_errIp : (s.resetRegisters).errIp = false := rfl
@[simp] theorem State.resetRegisters_kw : (s.resetRegisters).kw = 0 := rfl
@[simp] theorem State.resetRegisters_kh : (s.resetRegisters).kh = 0 := rfl
@[simp] theorem State.resetRegisters_done : (s.resetRegisters).done = false := rfl
@[simp] theorem State.resetRegisters_err : (s.resetRegisters).err = false := rfl
@[simp] theorem State.resetRegisters_outValid : (s.resetRegisters).outValid = false := rfl
@[simp] theorem State.resetRegisters_idxErr : (s.resetRegisters).idxErr = false := rfl
@[simp] theorem State.resetRegisters_errCode : (s.resetRegisters).errCode = 0 := rfl
@[simp] theorem State.resetRegisters_errCmd : (s.resetRegisters).errCmd = 0 := rfl
@[simp] theorem State.resetRegisters_cp : (s.resetRegisters).cp = 0 := rfl
@[simp] theorem State.resetRegisters_phase : (s.resetRegisters).phase = .idle := rfl
@[simp] theorem State.resetRegisters_img : (s.resetRegisters).img = none := rfl
@[simp] theorem State.resetRegisters_kmem : (s.resetRegisters).kmem = s.kmem := rfl
@[simp] theorem State.resetRegisters_cmdMem : (s.resetRegisters).cmdMem = s.cmdMem := rfl
@[simp] theorem State.resetRegisters_inMem : (s.resetRegisters).inMem = s.inMem := rfl
@[simp] theorem State.resetRegisters_outMem : (s.resetRegisters).outMem = s.outMem := rfl
@[simp] theorem State.resetRegisters_gammaLut : (s.resetRegisters).gammaLut = s.gammaLut := rfl
@[simp] theorem State.resetRegisters_hist : (s.resetRegisters).hist = s.hist := rfl
@[simp] theorem State.resetRegisters_cdf : (s.resetRegisters).cdf = s.cdf := rfl
@[simp] theorem State.resetRegisters_heqLut : (s.resetRegisters).heqLut = s.heqLut := rfl
@[simp] theorem State.resetRegisters_gw : (s.resetRegisters).gw = s.gw := rfl
@[simp] theorem State.resetRegisters_draws : (s.resetRegisters).draws = s.draws := rfl
@[simp] theorem State.resetRegisters_events : (s.resetRegisters).events = s.events := rfl
@[simp] theorem State.resetRegisters_responses : (s.resetRegisters).responses = s.responses := rfl

/-! ## OUT_MEM lost (R344) -/

@[simp] theorem State.loseOutMem_params : (s.loseOutMem).params = s.params := rfl
@[simp] theorem State.loseOutMem_cmdLen : (s.loseOutMem).cmdLen = s.cmdLen := rfl
@[simp] theorem State.loseOutMem_inLen : (s.loseOutMem).inLen = s.inLen := rfl
@[simp] theorem State.loseOutMem_outLen : (s.loseOutMem).outLen = s.outLen := rfl
@[simp] theorem State.loseOutMem_pixX : (s.loseOutMem).pixX = s.pixX := rfl
@[simp] theorem State.loseOutMem_pixY : (s.loseOutMem).pixY = s.pixY := rfl
@[simp] theorem State.loseOutMem_doneIe : (s.loseOutMem).doneIe = s.doneIe := rfl
@[simp] theorem State.loseOutMem_errIe : (s.loseOutMem).errIe = s.errIe := rfl
@[simp] theorem State.loseOutMem_doneIp : (s.loseOutMem).doneIp = s.doneIp := rfl
@[simp] theorem State.loseOutMem_errIp : (s.loseOutMem).errIp = s.errIp := rfl
@[simp] theorem State.loseOutMem_kw : (s.loseOutMem).kw = s.kw := rfl
@[simp] theorem State.loseOutMem_kh : (s.loseOutMem).kh = s.kh := rfl
@[simp] theorem State.loseOutMem_done : (s.loseOutMem).done = s.done := rfl
@[simp] theorem State.loseOutMem_err : (s.loseOutMem).err = s.err := rfl
@[simp] theorem State.loseOutMem_outValid : (s.loseOutMem).outValid = s.outValid := rfl
@[simp] theorem State.loseOutMem_idxErr : (s.loseOutMem).idxErr = s.idxErr := rfl
@[simp] theorem State.loseOutMem_errCode : (s.loseOutMem).errCode = s.errCode := rfl
@[simp] theorem State.loseOutMem_errCmd : (s.loseOutMem).errCmd = s.errCmd := rfl
@[simp] theorem State.loseOutMem_cp : (s.loseOutMem).cp = s.cp := rfl
@[simp] theorem State.loseOutMem_phase : (s.loseOutMem).phase = s.phase := rfl
@[simp] theorem State.loseOutMem_img : (s.loseOutMem).img = s.img := rfl
@[simp] theorem State.loseOutMem_kmem : (s.loseOutMem).kmem = s.kmem := rfl
@[simp] theorem State.loseOutMem_cmdMem : (s.loseOutMem).cmdMem = s.cmdMem := rfl
@[simp] theorem State.loseOutMem_inMem : (s.loseOutMem).inMem = s.inMem := rfl
@[simp] theorem State.loseOutMem_outMem : (s.loseOutMem).outMem = Memory.fresh s.draws := rfl
@[simp] theorem State.loseOutMem_gammaLut : (s.loseOutMem).gammaLut = s.gammaLut := rfl
@[simp] theorem State.loseOutMem_hist : (s.loseOutMem).hist = s.hist := rfl
@[simp] theorem State.loseOutMem_cdf : (s.loseOutMem).cdf = s.cdf := rfl
@[simp] theorem State.loseOutMem_heqLut : (s.loseOutMem).heqLut = s.heqLut := rfl
@[simp] theorem State.loseOutMem_gw : (s.loseOutMem).gw = s.gw := rfl
@[simp] theorem State.loseOutMem_draws : (s.loseOutMem).draws = s.draws + 1 := rfl
@[simp] theorem State.loseOutMem_events : (s.loseOutMem).events = s.events := rfl
@[simp] theorem State.loseOutMem_responses : (s.loseOutMem).responses = s.responses := rfl

/-! ## A free value drawn (R88) -/

@[simp] theorem State.drawn_params : (s.drawn).params = s.params := rfl
@[simp] theorem State.drawn_cmdLen : (s.drawn).cmdLen = s.cmdLen := rfl
@[simp] theorem State.drawn_inLen : (s.drawn).inLen = s.inLen := rfl
@[simp] theorem State.drawn_outLen : (s.drawn).outLen = s.outLen := rfl
@[simp] theorem State.drawn_pixX : (s.drawn).pixX = s.pixX := rfl
@[simp] theorem State.drawn_pixY : (s.drawn).pixY = s.pixY := rfl
@[simp] theorem State.drawn_doneIe : (s.drawn).doneIe = s.doneIe := rfl
@[simp] theorem State.drawn_errIe : (s.drawn).errIe = s.errIe := rfl
@[simp] theorem State.drawn_doneIp : (s.drawn).doneIp = s.doneIp := rfl
@[simp] theorem State.drawn_errIp : (s.drawn).errIp = s.errIp := rfl
@[simp] theorem State.drawn_kw : (s.drawn).kw = s.kw := rfl
@[simp] theorem State.drawn_kh : (s.drawn).kh = s.kh := rfl
@[simp] theorem State.drawn_done : (s.drawn).done = s.done := rfl
@[simp] theorem State.drawn_err : (s.drawn).err = s.err := rfl
@[simp] theorem State.drawn_outValid : (s.drawn).outValid = s.outValid := rfl
@[simp] theorem State.drawn_idxErr : (s.drawn).idxErr = s.idxErr := rfl
@[simp] theorem State.drawn_errCode : (s.drawn).errCode = s.errCode := rfl
@[simp] theorem State.drawn_errCmd : (s.drawn).errCmd = s.errCmd := rfl
@[simp] theorem State.drawn_cp : (s.drawn).cp = s.cp := rfl
@[simp] theorem State.drawn_phase : (s.drawn).phase = s.phase := rfl
@[simp] theorem State.drawn_img : (s.drawn).img = s.img := rfl
@[simp] theorem State.drawn_kmem : (s.drawn).kmem = s.kmem := rfl
@[simp] theorem State.drawn_cmdMem : (s.drawn).cmdMem = s.cmdMem := rfl
@[simp] theorem State.drawn_inMem : (s.drawn).inMem = s.inMem := rfl
@[simp] theorem State.drawn_outMem : (s.drawn).outMem = s.outMem := rfl
@[simp] theorem State.drawn_gammaLut : (s.drawn).gammaLut = s.gammaLut := rfl
@[simp] theorem State.drawn_hist : (s.drawn).hist = s.hist := rfl
@[simp] theorem State.drawn_cdf : (s.drawn).cdf = s.cdf := rfl
@[simp] theorem State.drawn_heqLut : (s.drawn).heqLut = s.heqLut := rfl
@[simp] theorem State.drawn_gw : (s.drawn).gw = s.gw := rfl
@[simp] theorem State.drawn_draws : (s.drawn).draws = s.draws + 1 := rfl
@[simp] theorem State.drawn_events : (s.drawn).events = s.events := rfl
@[simp] theorem State.drawn_responses : (s.drawn).responses = s.responses := rfl

/-! ## One byte space replaced (R14) -/

@[simp] theorem State.withMem_params (space : Space) (m : Memory) : (s.withMem space m).params = s.params := by
  cases space <;> rfl
@[simp] theorem State.withMem_cmdLen (space : Space) (m : Memory) : (s.withMem space m).cmdLen = s.cmdLen := by
  cases space <;> rfl
@[simp] theorem State.withMem_inLen (space : Space) (m : Memory) : (s.withMem space m).inLen = s.inLen := by
  cases space <;> rfl
@[simp] theorem State.withMem_outLen (space : Space) (m : Memory) : (s.withMem space m).outLen = s.outLen := by
  cases space <;> rfl
@[simp] theorem State.withMem_pixX (space : Space) (m : Memory) : (s.withMem space m).pixX = s.pixX := by
  cases space <;> rfl
@[simp] theorem State.withMem_pixY (space : Space) (m : Memory) : (s.withMem space m).pixY = s.pixY := by
  cases space <;> rfl
@[simp] theorem State.withMem_doneIe (space : Space) (m : Memory) : (s.withMem space m).doneIe = s.doneIe := by
  cases space <;> rfl
@[simp] theorem State.withMem_errIe (space : Space) (m : Memory) : (s.withMem space m).errIe = s.errIe := by
  cases space <;> rfl
@[simp] theorem State.withMem_doneIp (space : Space) (m : Memory) : (s.withMem space m).doneIp = s.doneIp := by
  cases space <;> rfl
@[simp] theorem State.withMem_errIp (space : Space) (m : Memory) : (s.withMem space m).errIp = s.errIp := by
  cases space <;> rfl
@[simp] theorem State.withMem_kw (space : Space) (m : Memory) : (s.withMem space m).kw = s.kw := by
  cases space <;> rfl
@[simp] theorem State.withMem_kh (space : Space) (m : Memory) : (s.withMem space m).kh = s.kh := by
  cases space <;> rfl
@[simp] theorem State.withMem_done (space : Space) (m : Memory) : (s.withMem space m).done = s.done := by
  cases space <;> rfl
@[simp] theorem State.withMem_err (space : Space) (m : Memory) : (s.withMem space m).err = s.err := by
  cases space <;> rfl
@[simp] theorem State.withMem_outValid (space : Space) (m : Memory) : (s.withMem space m).outValid = s.outValid := by
  cases space <;> rfl
@[simp] theorem State.withMem_idxErr (space : Space) (m : Memory) : (s.withMem space m).idxErr = s.idxErr := by
  cases space <;> rfl
@[simp] theorem State.withMem_errCode (space : Space) (m : Memory) : (s.withMem space m).errCode = s.errCode := by
  cases space <;> rfl
@[simp] theorem State.withMem_errCmd (space : Space) (m : Memory) : (s.withMem space m).errCmd = s.errCmd := by
  cases space <;> rfl
@[simp] theorem State.withMem_cp (space : Space) (m : Memory) : (s.withMem space m).cp = s.cp := by
  cases space <;> rfl
@[simp] theorem State.withMem_phase (space : Space) (m : Memory) : (s.withMem space m).phase = s.phase := by
  cases space <;> rfl
@[simp] theorem State.withMem_img (space : Space) (m : Memory) : (s.withMem space m).img = s.img := by
  cases space <;> rfl
@[simp] theorem State.withMem_kmem_kmem (m : Memory) : (s.withMem .kmem m).kmem = m := rfl
@[simp] theorem State.withMem_cmdMem_kmem (m : Memory) : (s.withMem .cmdMem m).kmem = s.kmem := rfl
@[simp] theorem State.withMem_inMem_kmem (m : Memory) : (s.withMem .inMem m).kmem = s.kmem := rfl
@[simp] theorem State.withMem_outMem_kmem (m : Memory) : (s.withMem .outMem m).kmem = s.kmem := rfl
@[simp] theorem State.withMem_kmem_cmdMem (m : Memory) : (s.withMem .kmem m).cmdMem = s.cmdMem := rfl
@[simp] theorem State.withMem_cmdMem_cmdMem (m : Memory) : (s.withMem .cmdMem m).cmdMem = m := rfl
@[simp] theorem State.withMem_inMem_cmdMem (m : Memory) : (s.withMem .inMem m).cmdMem = s.cmdMem := rfl
@[simp] theorem State.withMem_outMem_cmdMem (m : Memory) : (s.withMem .outMem m).cmdMem = s.cmdMem := rfl
@[simp] theorem State.withMem_kmem_inMem (m : Memory) : (s.withMem .kmem m).inMem = s.inMem := rfl
@[simp] theorem State.withMem_cmdMem_inMem (m : Memory) : (s.withMem .cmdMem m).inMem = s.inMem := rfl
@[simp] theorem State.withMem_inMem_inMem (m : Memory) : (s.withMem .inMem m).inMem = m := rfl
@[simp] theorem State.withMem_outMem_inMem (m : Memory) : (s.withMem .outMem m).inMem = s.inMem := rfl
@[simp] theorem State.withMem_kmem_outMem (m : Memory) : (s.withMem .kmem m).outMem = s.outMem := rfl
@[simp] theorem State.withMem_cmdMem_outMem (m : Memory) : (s.withMem .cmdMem m).outMem = s.outMem := rfl
@[simp] theorem State.withMem_inMem_outMem (m : Memory) : (s.withMem .inMem m).outMem = s.outMem := rfl
@[simp] theorem State.withMem_outMem_outMem (m : Memory) : (s.withMem .outMem m).outMem = m := rfl
@[simp] theorem State.withMem_gammaLut (space : Space) (m : Memory) : (s.withMem space m).gammaLut = s.gammaLut := by
  cases space <;> rfl
@[simp] theorem State.withMem_hist (space : Space) (m : Memory) : (s.withMem space m).hist = s.hist := by
  cases space <;> rfl
@[simp] theorem State.withMem_cdf (space : Space) (m : Memory) : (s.withMem space m).cdf = s.cdf := by
  cases space <;> rfl
@[simp] theorem State.withMem_heqLut (space : Space) (m : Memory) : (s.withMem space m).heqLut = s.heqLut := by
  cases space <;> rfl
@[simp] theorem State.withMem_gw (space : Space) (m : Memory) : (s.withMem space m).gw = s.gw := by
  cases space <;> rfl
@[simp] theorem State.withMem_draws (space : Space) (m : Memory) : (s.withMem space m).draws = s.draws := by
  cases space <;> rfl
@[simp] theorem State.withMem_events (space : Space) (m : Memory) : (s.withMem space m).events = s.events := by
  cases space <;> rfl
@[simp] theorem State.withMem_responses (space : Space) (m : Memory) : (s.withMem space m).responses = s.responses := by
  cases space <;> rfl

/-- The replaced space holds what was put there. -/
@[simp] theorem State.withMem_mem_same (space : Space) (m : Memory) : (s.withMem space m).mem space = m := by
  cases space <;> rfl

/-- Every other space is as before. -/
theorem State.withMem_mem_other (space other : Space) (m : Memory) (h : other ≠ space) :
    (s.withMem space m).mem other = s.mem other := by
  cases space <;> cases other <;> first | rfl | exact absurd rfl h

end Sys2Proof.Machine
end

