-- ==== Sys2Proof/Laws/Memory.lean ====
section
/-! SUPPORT. The laws of a byte space: what a read gives after a write, and that every operation keeps the canonical form
and the size. -/

namespace Sys2Proof.Machine

/-! ## Cells -/

theorem cellsFrom_bounds {a : Nat} {bs : List Byte} {c : Host.Cell} (h : c ∈ cellsFrom a bs) :
    a ≤ c.1 ∧ c.1 < a + bs.length := by
  induction bs generalizing a with
  | nil => simp [cellsFrom] at h
  | cons b bs ih =>
    simp only [cellsFrom, List.mem_cons] at h
    rcases h with rfl | h
    · simp
    · have := ih h
      simp only [List.length_cons]
      omega

theorem cellsFrom_pairwise (a : Nat) (bs : List Byte) : (cellsFrom a bs).Pairwise fun c d => c.1 < d.1 := by
  induction bs generalizing a with
  | nil => exact List.Pairwise.nil
  | cons b bs ih =>
    refine List.Pairwise.cons (fun c hc => ?_) (ih (a + 1))
    have := cellsFrom_bounds hc
    show a < c.1
    omega

theorem cellsFrom_lookup (a : Nat) (bs : List Byte) (x : Nat) :
    (cellsFrom a bs).lookup x = if a ≤ x then bs[x - a]? else none := by
  induction bs generalizing a with
  | nil => simp [cellsFrom]
  | cons b bs ih =>
    simp only [cellsFrom, List.lookup_cons, ih]
    by_cases hx : x = a
    · subst hx; simp
    · have hne : (x == a) = false := by simpa using hx
      rw [hne]
      by_cases hlt : a ≤ x
      · have h1 : a + 1 ≤ x := by omega
        have h2 : x - a = (x - (a + 1)) + 1 := by omega
        simp [h1, hlt, h2]
      · have h1 : ¬ a + 1 ≤ x := by omega
        simp [h1, hlt]

/-! ## Lookup -/

theorem lookup_append_cells (l l' : List Host.Cell) (x : Nat) :
    (l ++ l').lookup x = (l.lookup x).or (l'.lookup x) := by
  induction l with
  | nil => simp
  | cons c l ih =>
    obtain ⟨a, b⟩ := c
    simp only [List.cons_append, List.lookup_cons]
    cases x == a <;> simp [ih]

theorem lookup_filter_cells (p : Nat → Bool) (l : List Host.Cell) (x : Nat) :
    (l.filter fun c => p c.1).lookup x = if p x then l.lookup x else none := by
  induction l with
  | nil => simp
  | cons c l ih =>
    obtain ⟨a, b⟩ := c
    simp only [List.filter_cons, List.lookup_cons]
    by_cases hx : x = a
    · subst hx
      by_cases hp : p x = true
      · simp [hp]
      · simp [hp, ih]
    · have hne : (x == a) = false := by simpa using hx
      by_cases hp : p a = true
      · simp [hp, List.lookup_cons, hne, ih]
      · simp [hp, hne, ih]

theorem lookup_write (m : Memory) (a : Nat) (bs : List Byte) (x : Nat) :
    (m.write a bs).cells.lookup x =
      if a ≤ x ∧ x < a + bs.length then bs[x - a]? else m.cells.lookup x := by
  have h1 := lookup_filter_cells (fun k => decide (k < a)) m.cells x
  have h2 := lookup_filter_cells (fun k => decide (a + bs.length ≤ k)) m.cells x
  simp only [Memory.write, lookup_append_cells, cellsFrom_lookup, h1, h2]
  by_cases ha : a ≤ x
  · have hna : ¬ x < a := by omega
    by_cases hb : x < a + bs.length
    · have hnb : ¬ a + bs.length ≤ x := by omega
      simp [ha, hna, hb, hnb]
    · have hnb : a + bs.length ≤ x := by omega
      have hnone : bs[x - a]? = none := List.getElem?_eq_none (by omega)
      simp [ha, hna, hb, hnb, hnone]
  · have hna : x < a := by omega
    have hnb : ¬ a + bs.length ≤ x := by omega
    simp [ha, hna, hnb]

/-- What a read gives after a write: a stored byte at a stored address, and what it gave before everywhere else (R14). -/
theorem Memory.read_write (space : Space) (m : Memory) (a : Nat) (bs : List Byte) (x : Nat) :
    (m.write a bs).read space x =
      if h : a ≤ x ∧ x < a + bs.length then bs[x - a]'(by omega) else m.read space x := by
  unfold Memory.read
  rw [lookup_write]
  by_cases h : a ≤ x ∧ x < a + bs.length
  · rw [dif_pos h, if_pos h, List.getElem?_eq_getElem (show x - a < bs.length by omega)]
  · rw [dif_neg h, if_neg h]
    rfl

/-- A read outside the stored bytes gives what it gave before. -/
theorem Memory.read_write_other (space : Space) (m : Memory) (a : Nat) (bs : List Byte) (x : Nat)
    (h : x < a ∨ a + bs.length ≤ x) : (m.write a bs).read space x = m.read space x := by
  rw [Memory.read_write, dif_neg (by omega)]

/-- A read inside the stored bytes gives the stored byte. -/
theorem Memory.read_write_same (space : Space) (m : Memory) (a : Nat) (bs : List Byte) (k : Nat)
    (h : k < bs.length) : (m.write a bs).read space (a + k) = bs[k] := by
  rw [Memory.read_write, dif_pos (by omega)]
  simp

/-! ## The canonical form -/

theorem Memory.fresh_wf (d : Nat) : (Memory.fresh d).wf := List.Pairwise.nil

theorem Memory.fresh_within (d n : Nat) : (Memory.fresh d).within n := by
  intro c hc
  simp [Memory.fresh] at hc

/-- A write keeps the canonical form. -/
theorem Memory.write_wf {m : Memory} (h : m.wf) (a : Nat) (bs : List Byte) : (m.write a bs).wf := by
  simp only [Memory.wf, Memory.write]
  refine List.pairwise_append.2 ⟨List.pairwise_append.2 ⟨h.filter _, cellsFrom_pairwise a bs, ?_⟩, h.filter _, ?_⟩
  · intro c hc d hd
    have hd' := cellsFrom_bounds hd
    have hc' : c.1 < a := by simpa using (List.mem_filter.1 hc).2
    omega
  · intro c hc d hd
    have hd' : a + bs.length ≤ d.1 := by simpa using (List.mem_filter.1 hd).2
    rcases List.mem_append.1 hc with hc | hc
    · have hc' : c.1 < a := by simpa using (List.mem_filter.1 hc).2
      omega
    · have := cellsFrom_bounds hc
      omega

/-- A write of bytes that end below `n` keeps every listed address below `n`. -/
theorem Memory.write_within {m : Memory} {n : Nat} (h : m.within n) {a : Nat} {bs : List Byte}
    (hn : bs = [] ∨ a + bs.length ≤ n) : (m.write a bs).within n := by
  intro c hc
  simp only [Memory.write, List.mem_append, List.mem_filter] at hc
  rcases hc with (⟨hc, -⟩ | hc) | ⟨hc, -⟩
  · exact h c hc
  · have hb := cellsFrom_bounds hc
    rcases hn with rfl | hn
    · simp [cellsFrom] at hc
    · omega
  · exact h c hc

/-- The memories of the reset state are in canonical form. -/
theorem State.reset_mem_wf (space : Space) : (State.reset.mem space).wf := by
  cases space <;> exact Memory.fresh_wf 0

/-! ## Little-endian bytes -/

@[simp] theorem leBytes_length (n v : Nat) : (leBytes n v).length = n := by
  induction n generalizing v with
  | zero => rfl
  | succ n ih => simp [leBytes, ih]

/-- Reading back what `leBytes` wrote gives the value modulo its width (R14). -/
theorem leNat_leBytes (n v : Nat) : leNat (leBytes n v) = v % 256 ^ n := by
  induction n generalizing v with
  | zero => simp [leBytes, leNat, Nat.mod_one]
  | succ n ih =>
    simp only [leBytes, leNat, ih, BitVec.toNat_ofNat]
    have h : (256 : Nat) ^ (n + 1) = 256 * 256 ^ n := Nat.pow_succ'
    rw [h, Nat.mod_mul]

theorem leNat_lt (bs : List Byte) : leNat bs < 256 ^ bs.length := by
  induction bs with
  | nil => simp [leNat]
  | cons b bs ih =>
    have hb := b.isLt
    simp only [leNat, List.length_cons, Nat.pow_succ]
    omega

end Sys2Proof.Machine
end

