-- ==== Sys2Proof/Laws/Ops.lean ====
section
/-! SUPPORT. For each shared operation, one lemma that says everything it can do. -/

namespace Sys2Proof.Machine

variable {s t : State}

/-! ## The frame of a command -/

/-- Everything `command` can do: a failed check or a raising body ends the run with an error; a passed check in VALIDATE
moves CP on; a body that completes has its effect and moves CP on (R271, R273, R306). -/
theorem State.command_cases (s : State) (check : Option ErrKind) (body : Except ErrKind State) :
    (∃ e, check = some e ∧ s.command check body = .next (s.endWithError e s.cp)) ∨
      (check = none ∧ s.phase = .validate ∧ s.command check body = .next s.advance) ∨
      (check = none ∧ s.phase ≠ .validate ∧ ∃ e, body = .error e ∧
        s.command check body = .next (s.endWithError e s.cp)) ∨
      (check = none ∧ s.phase ≠ .validate ∧ ∃ t, body = .ok t ∧ s.command check body = .next t.advance) := by
  cases check with
  | some e => exact .inl ⟨e, rfl, rfl⟩
  | none =>
    by_cases hp : s.phase = .validate
    · exact .inr (.inl ⟨rfl, hp, by simp [State.command, hp]⟩)
    · cases body with
      | error e => exact .inr (.inr (.inl ⟨rfl, hp, e, rfl, by simp [State.command, hp]⟩))
      | ok t => exact .inr (.inr (.inr ⟨rfl, hp, t, rfl, by simp [State.command, hp]⟩))

/-- A command whose check fails ends the run, in either phase (R272, R306). -/
theorem State.command_check (e : ErrKind) (body : Except ErrKind State) :
    s.command (some e) body = .next (s.endWithError e s.cp) := rfl

/-- A command whose check passes in VALIDATE only moves CP on (R271). -/
theorem State.command_validate (h : s.phase = .validate) (body : Except ErrKind State) :
    s.command none body = .next s.advance := by
  simp [State.command, h]

/-- A command whose body completes has its effect and moves CP on (R273, R274). -/
theorem State.command_ok (h : s.phase ≠ .validate) : s.command none (.ok t) = .next t.advance := by
  simp [State.command, h]

/-- A command whose body raises ends the run (R273, R306). -/
theorem State.command_error (h : s.phase ≠ .validate) (e : ErrKind) :
    s.command none (.error e) = .next (s.endWithError e s.cp) := by
  simp [State.command, h]

/-- A command that reads the image raises InvalidDimensions when none is held (R281). -/
theorem State.withImage_none (h : s.img = none) (f : Image → Except ErrKind State) :
    s.withImage f = .error .invalidDimensions := by
  simp [State.withImage, h]

theorem State.withImage_some {I : Image} (h : s.img = some I) (f : Image → Except ErrKind State) :
    s.withImage f = f I := by
  simp [State.withImage, h]

/-- What `withImage` can answer. -/
theorem State.withImage_ok {f : Image → Except ErrKind State} (h : s.withImage f = .ok t) :
    ∃ I, s.img = some I ∧ f I = .ok t := by
  unfold State.withImage at h
  split at h
  · cases h
  · rename_i I hI
    exact ⟨I, hI, h⟩

theorem State.mapImage_none (h : s.img = none) (f : Image → Image) :
    s.mapImage f = .error .invalidDimensions := s.withImage_none h _

theorem State.mapImage_some {I : Image} (h : s.img = some I) (f : Image → Image) :
    s.mapImage f = .ok { s with img := some (f I) } := s.withImage_some h _

/-- What `mapImage` can answer: the image sent through `f`, and nothing else changed. -/
theorem State.mapImage_ok {f : Image → Image} (h : s.mapImage f = .ok t) :
    ∃ I, s.img = some I ∧ t = { s with img := some (f I) } := by
  obtain ⟨I, hI, ht⟩ := State.withImage_ok h
  exact ⟨I, hI, (Except.ok.inj ht).symm⟩

/-! ## What the executions change -/

/-- Everything DECODE can do: raise, or replace the image (R166, R173). -/
theorem bodyDecode_cases (s : State) :
    (∃ e, parseBmp s.params s.inLen.toNat (s.readByte .inMem) = .error e ∧ bodyDecode s = .error e) ∨
      (∃ I, parseBmp s.params s.inLen.toNat (s.readByte .inMem) = .ok I ∧
        bodyDecode s = .ok { s with img := some I }) := by
  unfold bodyDecode
  split
  · rename_i e h
    exact .inl ⟨e, h, rfl⟩
  · rename_i I h
    exact .inr ⟨I, h, rfl⟩

/-- Everything ENCODE can do: raise, or write the file and its two registers (R176, R180, R181). -/
theorem bodyEncode_cases (s : State) :
    (s.img = none ∧ bodyEncode s = .error .invalidDimensions) ∨
      (∃ I, s.img = some I ∧ s.params.outCap < bmpSize I.w I.h ∧ bodyEncode s = .error .capacityExceeded) ∨
      (∃ I, s.img = some I ∧ bmpSize I.w I.h ≤ s.params.outCap ∧
        bodyEncode s = .ok { s with
          outMem := s.outMem.write 0 (bmpBytes I)
          outLen := BitVec.ofNat 32 (bmpSize I.w I.h)
          outValid := true }) := by
  cases hI : s.img with
  | none => exact .inl ⟨rfl, State.withImage_none hI _⟩
  | some I =>
    by_cases h : s.params.outCap < bmpSize I.w I.h
    · exact .inr (.inl ⟨I, rfl, h, by simp [bodyEncode, State.withImage, hI, h]⟩)
    · exact .inr (.inr ⟨I, rfl, by omega, by simp [bodyEncode, State.withImage, hI, h]⟩)

/-- Everything BLUR's execution can do: raise, or fill GW and replace the image (R217). -/
theorem bodyBlur_cases (sigma : Nat) (s : State) :
    (s.img = none ∧ bodyBlur sigma s = .error .invalidDimensions) ∨
      (∃ I, s.img = some I ∧
        bodyBlur sigma s = .ok { s with
          gw := fillGw sigma s.gw
          img := some (vpass (fillGw sigma s.gw) (gaussRadius sigma)
            (hpass (fillGw sigma s.gw) (gaussRadius sigma) I)) }) := by
  cases hI : s.img with
  | none => exact .inl ⟨rfl, State.withImage_none hI _⟩
  | some I => exact .inr ⟨I, rfl, State.withImage_some hI _⟩

/-- Everything GAMMA's execution can do: raise, or fill GAMMA_LUT and replace the image (R248). -/
theorem bodyGamma_cases (g : Nat) (s : State) :
    (s.img = none ∧ bodyGamma g s = .error .invalidDimensions) ∨
      (∃ I, s.img = some I ∧
        bodyGamma g s = .ok { s with
          gammaLut := gammaTable g
          img := some (lutImage (gammaTable g) I) }) := by
  cases hI : s.img with
  | none => exact .inl ⟨rfl, State.withImage_none hI _⟩
  | some I => exact .inr ⟨I, rfl, State.withImage_some hI _⟩

/-- Everything HISTEQ's execution can do: raise, fill HIST and CDF and leave the image, or fill all three tables and
replace the image (R253, R255). -/
theorem bodyHisteq_cases (s : State) :
    (s.img = none ∧ bodyHisteq s = .error .invalidDimensions) ∨
      (∃ I, s.img = some I ∧ I.w * I.h = cdfMin (cumulate (histogram I)) ∧
        bodyHisteq s = .ok { s with
          hist := histogram I
          cdf := cumulate (histogram I) }) ∨
      (∃ I, s.img = some I ∧ I.w * I.h ≠ cdfMin (cumulate (histogram I)) ∧
        bodyHisteq s = .ok { s with
          hist := histogram I
          cdf := cumulate (histogram I)
          heqLut := fillHeqLut (I.w * I.h) (cumulate (histogram I)) s.heqLut
          img := some (newImage I.w I.h fun x y =>
            (I.px x y).equalized (fillHeqLut (I.w * I.h) (cumulate (histogram I)) s.heqLut)) }) := by
  cases hI : s.img with
  | none => exact .inl ⟨rfl, State.withImage_none hI _⟩
  | some I =>
    by_cases h : I.w * I.h = cdfMin (cumulate (histogram I))
    · exact .inr (.inl ⟨I, rfl, h, by simp [bodyHisteq, State.withImage, hI, h]⟩)
    · exact .inr (.inr ⟨I, rfl, h, by simp [bodyHisteq, State.withImage, hI, h]⟩)

/-! ## Sizes of the tables -/

@[simp] theorem gammaTable_length (g : Nat) : (gammaTable g).length = 256 := by simp [gammaTable]

@[simp] theorem histogram_length (S : Image) : (histogram S).length = 256 := by simp [histogram]

@[simp] theorem cumulate_length (h : List Word32) : (cumulate h).length = 256 := by simp [cumulate]

@[simp] theorem fillHeqLut_length (N : Nat) (c : List Word32) (o : List Byte) : (fillHeqLut N c o).length = 256 := by
  simp [fillHeqLut]

theorem gaussChain_length (qq n e t : Nat) : (gaussChain qq n e t).length = n := by
  induction n generalizing e t with
  | zero => rfl
  | succ n ih => simp [gaussChain, ih]

@[simp] theorem gaussWeights_length (sigma : Nat) : (gaussWeights sigma).length = gaussRadius sigma + 1 := by
  simp [gaussWeights, gaussSides, gaussExps, gaussChain_length]

/-- GW keeps its 65 entries for every radius a legal configuration accepts (R57, R216). -/
theorem fillGw_length {sigma : Nat} {old : List Word32} (h : gaussRadius sigma ≤ 64) (ho : old.length = 65) :
    (fillGw sigma old).length = 65 := by
  simp only [fillGw, List.length_append, List.length_map, List.length_drop, gaussWeights_length, ho]
  omega

/-! ## The host port -/

/-- Everything a register read can change: nothing, the draw counter, or IDX_ERR (R87, R88, R147). -/
theorem State.readReg_state (s : State) (r : Reg) :
    (s.readReg r).2 = s ∨ (s.busy = true ∧ (s.readReg r).2 = s.drawn) ∨
      (s.busy = false ∧ r = .pixData ∧ (s.readReg r).2 = { s with idxErr := true }) := by
  cases hb : s.busy <;> cases r <;>
    simp only [State.readReg, State.readUnlessBusy, State.readStatus, State.readPixData, hb, if_true,
      Bool.false_eq_true, if_false, true_or, true_and, or_true, and_self]
  split <;> simp

/-- Everything a PIX_DATA write can do (R88, R148). -/
theorem State.writePixData_cases (s : State) (v : Word32) :
    (s.busy = true ∧ s.writePixData v = s) ∨
      (s.busy = false ∧ ∃ I J, s.img = some I ∧ I.set? s.pixX.toNat s.pixY.toNat (Pixel.ofWord v) = some J ∧
        s.writePixData v = { s with img := some J }) ∨
      (s.busy = false ∧ (∀ I, s.img = some I → ¬(s.pixX.toNat < I.w ∧ s.pixY.toNat < I.h)) ∧
        s.writePixData v = { s with idxErr := true }) := by
  cases hb : s.busy with
  | true => exact .inl ⟨rfl, by simp [State.writePixData, hb]⟩
  | false =>
    cases hI : s.img with
    | none => exact .inr (.inr ⟨rfl, by simp, by simp [State.writePixData, hb, hI]⟩)
    | some I =>
      rcases I.set?_cases s.pixX.toNat s.pixY.toNat (Pixel.ofWord v) with ⟨-, -, h⟩ | ⟨hn, h⟩
      · exact .inr (.inl ⟨rfl, I, _, rfl, h, by simp [State.writePixData, hb, hI, h]⟩)
      · refine .inr (.inr ⟨rfl, ?_, by simp [State.writePixData, hb, hI, h]⟩)
        rintro J hJ
        obtain rfl := Option.some.inj hJ
        exact hn

/-- Everything a CTRL write can do (R35). -/
theorem State.writeCtrl_cases (s : State) (v : Word32) :
    (v.getLsbD 1 = true ∧ s.writeCtrl v = s.softReset) ∨
      (v.getLsbD 1 = false ∧ s.busy = true ∧ s.writeCtrl v = s) ∨
      (v.getLsbD 1 = false ∧ s.busy = false ∧
        s.writeCtrl v =
          (if v.getLsbD 0 then (if v.getLsbD 2 then { s with idxErr := false } else s).start
            else if v.getLsbD 2 then { s with idxErr := false } else s)) := by
  cases h1 : v.getLsbD 1 with
  | true => exact .inl ⟨rfl, by simp only [State.writeCtrl, h1, if_true]⟩
  | false =>
    cases hb : s.busy with
    | true => exact .inr (.inl ⟨rfl, rfl, by simp only [State.writeCtrl, h1, hb, Bool.false_eq_true, if_false, if_true]⟩)
    | false => exact .inr (.inr ⟨rfl, rfl, by simp only [State.writeCtrl, h1, hb, Bool.false_eq_true, if_false]⟩)

/-- Everything a soft reset can do: the registers at reset, and OUT_MEM lost when it abandons a run that contains an
ENCODE (R343, R344). -/
theorem State.softReset_cases (s : State) :
    (s.busy = true ∧ s.listHasEncode = true ∧ s.softReset = s.loseOutMem.resetRegisters) ∨
      (¬(s.busy = true ∧ s.listHasEncode = true) ∧ s.softReset = s.resetRegisters) := by
  by_cases h : s.busy = true ∧ s.listHasEncode = true
  · exact .inl ⟨h.1, h.2, by simp [State.softReset, h]⟩
  · refine .inr ⟨h, ?_⟩
    simp only [State.softReset, Bool.and_eq_true]
    exact if_neg h

/-- Everything a host write of a memory window can do (R86, R88). -/
theorem State.hostMemWrite_cases (s : State) (space : Space) (a n : Nat) (d : Word32) :
    s.hostMemWrite space a n d = s ∨
      (s.busy = false ∧ space ≠ .outMem ∧
        s.hostMemWrite space a n d =
          s.withMem space ((s.mem space).write a ((leBytes n d.toNat).take (s.params.sizeOf space - a)))) := by
  cases hb : s.busy with
  | true => exact .inl (by simp [State.hostMemWrite, hb])
  | false =>
    by_cases ho : space = .outMem
    · exact .inl (by simp [State.hostMemWrite, ho])
    · have hf : (space == Space.outMem) = false := by simpa using ho
      exact .inr ⟨rfl, ho, by simp [State.hostMemWrite, hb, hf]⟩

/-- What a host read leaves: the state, or what the register read leaves (R84, R85). -/
theorem State.hostRead_state (s : State) (addr : Word32) (width : Width) :
    (s.hostRead addr width).2 = s ∨ ∃ r, (s.hostRead addr width).2 = (s.readReg r).2 := by
  unfold State.hostRead
  dsimp only
  split
  · split
    · split
      · exact .inr ⟨_, rfl⟩
      · exact .inl rfl
    · exact .inl rfl
    · exact .inl rfl
  · exact .inl rfl

/-- What a host write leaves: the state, or what the register or memory write leaves (R84, R85). -/
theorem State.hostWrite_state (s : State) (addr : Word32) (width : Width) (d : Word32) :
    (s.hostWrite addr width d).2 = s ∨ (∃ r, (s.hostWrite addr width d).2 = s.writeReg r d) ∨
      (∃ space a, (s.hostWrite addr width d).2 = s.hostMemWrite space a width.bytes d) := by
  unfold State.hostWrite
  dsimp only
  split
  · split
    · split
      · exact .inr (.inl ⟨_, rfl⟩)
      · exact .inl rfl
    · exact .inr (.inr ⟨_, _, rfl⟩)
    · exact .inl rfl
  · exact .inl rfl

end Sys2Proof.Machine
end

