-- ==== Sys2Proof/Laws/Codec.lean ====
section
/-! SUPPORT. What the codec's functions give: the length of the file ENCODE writes, and the form of an image DECODE
accepts. -/

namespace Sys2Proof.Machine

theorem Params.holds_iff {p : Params} {w h : Nat} :
    p.holds w h = true ↔ w ≤ p.maxW ∧ h ≤ p.maxH ∧ w * h ≤ p.maxPixels := by
  simp [Params.holds, and_assoc]

/-- A stored row holds its pixels (R162). -/
theorem le_rowBytes (w : Nat) : 3 * w ≤ rowBytes w := by
  unfold rowBytes ceilDiv
  omega

@[simp] theorem bmpHeader_length (w h : Nat) : (bmpHeader w h).length = 54 := by simp [bmpHeader]

@[simp] theorem bmpRow_length (I : Image) (y : Nat) : (bmpRow I y).length = rowBytes I.w := by
  have := le_rowBytes I.w
  simp [bmpRow, padBytes, List.length_flatMap]
  omega

/-- The file ENCODE writes has the size of R176. -/
@[simp] theorem bmpBytes_length (I : Image) : (bmpBytes I).length = bmpSize I.w I.h := by
  simp [bmpBytes, List.length_flatMap, bmpSize, Nat.mul_comm]

/-- An image that DECODE accepts is a full grid within the capacities (R166 steps 7, 8 and 12). -/
theorem parseBmp_ok {p : Params} {n : Nat} {rd : Nat → Byte} {I : Image} (h : parseBmp p n rd = .ok I) :
    I.wf ∧ p.holds I.w I.h = true := by
  unfold parseBmp at h
  split_ifs at h
  unfold parseInfoHeader at h
  dsimp only at h
  split_ifs at h
  unfold parsePixels at h
  dsimp only at h
  split_ifs at h with h1 h2
  cases h
  exact ⟨newImage_wf _ (by omega) (by omega), h1⟩

end Sys2Proof.Machine
end

