-- ==== Sys2Proof/Laws/Decode.lean ====
section
/-! SUPPORT. The fields of a packed command word, and what the decoder can answer, said once. -/

namespace Sys2Proof

/-! ## The fields of a packed word -/

@[simp] theorem opcField_packC64 (o : Byte) (a b : Word16) : opcField (packC64 o a b) = o := by
  apply BitVec.eq_of_getElem_eq
  intro i hi
  interval_cases i <;> simp [opcField, packC64]

@[simp] theorem aField_packC64 (o : Byte) (a b : Word16) : aField (packC64 o a b) = a := by
  apply BitVec.eq_of_getElem_eq
  intro i hi
  interval_cases i <;> simp [aField, packC64]

@[simp] theorem bField_packC64 (o : Byte) (a b : Word16) : bField (packC64 o a b) = b := by
  apply BitVec.eq_of_getElem_eq
  intro i hi
  interval_cases i <;> simp [bField, packC64]

@[simp] theorem rsv0Field_packC64 (o : Byte) (a b : Word16) : rsv0Field (packC64 o a b) = 0 := by
  apply BitVec.eq_of_getElem_eq
  intro i hi
  interval_cases i <;> simp [rsv0Field, packC64]

@[simp] theorem rsv1Field_packC64 (o : Byte) (a b : Word16) : rsv1Field (packC64 o a b) = 0 := by
  apply BitVec.eq_of_getElem_eq
  intro i hi
  interval_cases i <;> simp [rsv1Field, packC64]

/-! ## What the decoder can answer -/

/-- Everything `decodeWord` can do: refuse a reserved field, or decode by opcode, A and B (R116, R117). -/
theorem decodeWord_cases (w : Word64) :
    (rsv0Field w ≠ 0 ∧ decodeWord w = .error .rsv0NotZero) ∨
      (rsv0Field w = 0 ∧ rsv1Field w ≠ 0 ∧ decodeWord w = .error .rsv1NotZero) ∨
      (rsv0Field w = 0 ∧ rsv1Field w = 0 ∧ decodeWord w = decodeFields (opcField w) (aField w) (bField w)) := by
  by_cases h0 : rsv0Field w = 0
  · by_cases h1 : rsv1Field w = 0
    · exact .inr (.inr ⟨h0, h1, by rw [decodeWord, if_neg (not_not.2 h0), if_neg (not_not.2 h1)]⟩)
    · exact .inr (.inl ⟨h0, h1, by rw [decodeWord, if_neg (not_not.2 h0), if_pos h1]⟩)
  · exact .inl ⟨h0, by rw [decodeWord, if_pos h0]⟩

/-- The 8 bytes of a word decode as the word does (R112). -/
theorem decodeBytes_leBytes (w : Word64) : decodeBytes (leBytes 8 w.toNat) = decodeWord w := by
  have hl : (leBytes 8 w.toNat).length = 8 := Machine.leBytes_length 8 w.toNat
  have ht : (leBytes 8 w.toNat).take 8 = leBytes 8 w.toNat := List.take_of_length_le (by omega)
  have hm : w.toNat % 256 ^ 8 = w.toNat := Nat.mod_eq_of_lt w.isLt
  rw [decodeBytes, if_neg (by omega), ht, Machine.leNat_leBytes, hm, BitVec.ofNat_toNat, BitVec.setWidth_eq]

end Sys2Proof
end

