-- ==== Sys2Proof/Laws/Engine.lean ====
section
/-! SUPPORT. What the engine and one step can do, said once. -/

namespace Sys2Proof.Machine

variable {s t : State}

/-- The meaning of a command is its static check and its execution in the common frame (R271, R273). -/
theorem exec_eq_command (i : Instr) (s : State) :
    exec i s = s.command (staticCheck i s) (executeCommand i s) := by
  cases i <;> rfl

/-- Every command answers a next state: the run ended with an error, CP moved on, or its execution's state with CP moved
on. It never faults and is never refused. -/
theorem exec_cases (i : Instr) (s : State) :
    (∃ e, staticCheck i s = some e ∧ exec i s = .next (s.endWithError e s.cp)) ∨
      (staticCheck i s = none ∧ s.phase = .validate ∧ exec i s = .next s.advance) ∨
      (staticCheck i s = none ∧ s.phase ≠ .validate ∧ ∃ e, executeCommand i s = .error e ∧
        exec i s = .next (s.endWithError e s.cp)) ∨
      (staticCheck i s = none ∧ s.phase ≠ .validate ∧ ∃ t, executeCommand i s = .ok t ∧
        exec i s = .next t.advance) := by
  rw [exec_eq_command]
  exact s.command_cases _ _

/-- An execution that completes leaves the parameters, the host's inputs, CP, PHASE, the flags and the model's own fields as
they were, and only ENCODE writes OUT_MEM (R90, R274). -/
theorem executeCommand_frame {i : Instr} (h : executeCommand i s = .ok t) :
    (t.params = s.params ∧ t.cmdLen = s.cmdLen ∧ t.inLen = s.inLen ∧ t.kw = s.kw ∧ t.kh = s.kh ∧ t.cp = s.cp ∧
      t.phase = s.phase) ∧
    (t.cmdMem = s.cmdMem ∧ t.kmem = s.kmem ∧ t.inMem = s.inMem ∧ (i ≠ .encode → t.outMem = s.outMem)) ∧
    (t.done = s.done ∧ t.err = s.err ∧ t.idxErr = s.idxErr ∧ t.doneIp = s.doneIp ∧ t.errIp = s.errIp ∧
      t.doneIe = s.doneIe ∧ t.errIe = s.errIe ∧ t.errCode = s.errCode ∧ t.errCmd = s.errCmd) ∧
    (t.pixX = s.pixX ∧ t.pixY = s.pixY ∧ t.draws = s.draws ∧ t.events = s.events ∧ t.responses = s.responses) := by
  cases i with
  | decode =>
    rcases bodyDecode_cases s with ⟨e, -, he⟩ | ⟨I, -, he⟩ <;>
      simp only [executeCommand, he, Except.ok.injEq, reduceCtorEq] at h
    subst h
    simp
  | encode =>
    rcases bodyEncode_cases s with ⟨-, he⟩ | ⟨I, -, -, he⟩ | ⟨I, -, -, he⟩ <;>
      simp only [executeCommand, he, Except.ok.injEq, reduceCtorEq] at h
    subst h
    simp
  | create w h' =>
    simp only [executeCommand, bodyCreate, Except.ok.injEq] at h
    subst h
    simp
  | blur sigma =>
    rcases bodyBlur_cases sigma s with ⟨-, he⟩ | ⟨I, -, he⟩ <;>
      simp only [executeCommand, he, Except.ok.injEq, reduceCtorEq] at h
    subst h
    simp
  | gamma g =>
    rcases bodyGamma_cases g s with ⟨-, he⟩ | ⟨I, -, he⟩ <;>
      simp only [executeCommand, he, Except.ok.injEq, reduceCtorEq] at h
    subst h
    simp
  | histeq =>
    rcases bodyHisteq_cases s with ⟨-, he⟩ | ⟨I, -, -, he⟩ | ⟨I, -, -, he⟩ <;>
      simp only [executeCommand, he, Except.ok.injEq, reduceCtorEq] at h <;>
      subst h <;> simp
  | _ =>
    obtain ⟨I, -, rfl⟩ := State.mapImage_ok h
    simp

/-- Everything the move of one slot can do (R116, R271, R273). -/
theorem runSlot_cases (s : State) :
    (s.params.cmdCap ≤ s.cp.toNat ∧ runSlot s = .fault (.engineOutsideCmdMem s.cp.toNat)) ∨
      (s.cp.toNat < s.params.cmdCap ∧ (∃ d, s.slotCommand s.cp.toNat = .error d) ∧
        runSlot s = .next (s.endWithError .illegalCommand s.cp)) ∨
      (s.cp.toNat < s.params.cmdCap ∧ ∃ i, s.slotCommand s.cp.toNat = .ok i ∧ runSlot s = exec i s) := by
  by_cases hc : s.cp.toNat < s.params.cmdCap
  · have hs : s.slotExists s.cp.toNat = true := by simp [State.slotExists, hc]
    cases hd : s.slotCommand s.cp.toNat with
    | error d => exact .inr (.inl ⟨hc, ⟨d, rfl⟩, by simp [runSlot, hs, hd]⟩)
    | ok i => exact .inr (.inr ⟨hc, i, rfl, by simp [runSlot, hs, hd]⟩)
  · have hs : s.slotExists s.cp.toNat = false := by simp [State.slotExists, hc]
    exact .inl ⟨by omega, by simp [runSlot, hs]⟩

/-- Everything one engine move can do (R270-R278). -/
theorem engineMove_cases (s : State) :
    (s.phase = .idle ∧ engineMove s = .next s) ∨
      (s.phase = .validate ∧ s.params.cmdCap < s.cmdLen.toNat ∧
        engineMove s = .next (s.endWithError .capacityExceeded noCommand)) ∨
      (s.phase = .validate ∧ s.cmdLen.toNat ≤ s.params.cmdCap ∧ s.cp.toNat < s.cmdLen.toNat ∧
        engineMove s = runSlot s) ∨
      (s.phase = .validate ∧ s.cmdLen.toNat ≤ s.params.cmdCap ∧ s.cmdLen.toNat ≤ s.cp.toNat ∧
        engineMove s = .next s.beginExecution) ∨
      (s.phase = .execute ∧ s.cp.toNat < s.cmdLen.toNat ∧ engineMove s = runSlot s) ∨
      (s.phase = .execute ∧ s.cmdLen.toNat ≤ s.cp.toNat ∧ engineMove s = .next s.endWithSuccess) := by
  cases hp : s.phase with
  | idle => exact .inl ⟨rfl, by simp [engineMove, hp]⟩
  | validate =>
    by_cases hl : s.params.cmdCap < s.cmdLen.toNat
    · exact .inr (.inl ⟨rfl, hl, by simp [engineMove, hp, hl]⟩)
    · by_cases hc : s.cp.toNat < s.cmdLen.toNat
      · exact .inr (.inr (.inl ⟨rfl, by omega, hc, by simp [engineMove, hp, hl, hc]⟩))
      · exact .inr (.inr (.inr (.inl ⟨rfl, by omega, by omega, by simp [engineMove, hp, hl, hc]⟩)))
  | execute =>
    by_cases hc : s.cp.toNat < s.cmdLen.toNat
    · exact .inr (.inr (.inr (.inr (.inl ⟨rfl, hc, by simp [engineMove, hp, hc]⟩))))
    · exact .inr (.inr (.inr (.inr (.inr ⟨rfl, by omega, by simp [engineMove, hp, hc]⟩))))

/-- Everything one step can do: the engine moves, or the first event is handled (log 6). -/
theorem step_cases (s : State) :
    (s.events = [] ∧ step s = engineMove s) ∨
      (∃ e es, s.events = e :: es ∧ step s = handleEvent e { s with events := es }) := by
  cases he : s.events with
  | nil => exact .inl ⟨rfl, by simp [step, stepBlock, he]⟩
  | cons e es => exact .inr ⟨e, es, rfl, by simp [step, stepBlock, he]⟩

/-- With no event due, the engine moves. -/
theorem step_of_no_events (h : s.events = []) : step s = engineMove s := by
  simp [step, stepBlock, h]

/-- A run of one more step is that step and then the run. -/
theorem run_succ (n : Nat) (h : step s = .next t) :
    Host.Core.run Sys2Proof.core (n + 1) s = Host.Core.run Sys2Proof.core n t := by
  have hs : Sys2Proof.core.step s = .next t := h
  simp only [Host.Core.run, hs]

/-- Whether a slot passes validation depends on CMD_MEM, the parameters and KCFG alone (R272). -/
theorem slotError_congr (h1 : t.cmdMem = s.cmdMem) (h2 : t.params = s.params) (h3 : t.kw = s.kw) (h4 : t.kh = s.kh)
    (k : Nat) : slotError t k = slotError s k := by
  have hc : t.slotCommand k = s.slotCommand k := by
    simp [State.slotCommand, State.slotBytes, State.readByte, State.mem, h1]
  simp only [slotError, hc]
  cases s.slotCommand k with
  | error d => rfl
  | ok i =>
    cases i <;>
      simp [staticCheck, checkCreate, checkConv, checkBlur, checkMedian, checkGamma, checkCrop, h2, h3, h4]

end Sys2Proof.Machine
end

