-- ==== Sys2Proof/Laws/PerInstr.lean ====
section
/-! SUPPORT. Statements about every command as syntax, one lemma per constructor (LAWS.json, "per_instruction"). -/

namespace Sys2Proof.Laws

/-- Both operand fields are masked out. -/
theorem packC64_mask_ab (opc : Byte) (a b : Word16) :
    packC64 opc a b &&& 0xFFFF00000000FFFF = packC64 opc 0 0 := by
  apply BitVec.eq_of_getElem_eq
  intro i hi
  interval_cases i <;> simp [packC64]

/-- Field A is masked out. -/
theorem packC64_mask_a (opc : Byte) (a : Word16) :
    packC64 opc a 0 &&& 0xFFFFFFFF0000FFFF = packC64 opc 0 0 := by
  apply BitVec.eq_of_getElem_eq
  intro i hi
  interval_cases i <;> simp [packC64]

end Sys2Proof.Laws

namespace Sys2Proof.Laws.EncodeMatchesRow

/-- The word of a command spells its row of R115: under the row's mask it is the row's match value. -/
def Statement (i : Instr) : Prop := encode i &&& rowMask i = rowMatch i

theorem decode : Statement .decode := rfl

theorem encode : Statement .encode := rfl

theorem create (w h : Nat) : Statement (.create w h) :=
  (packC64_mask_ab _ _ _).trans rfl

theorem conv : Statement .conv := rfl

theorem sharpen : Statement .sharpen := rfl

theorem edge (t : Int) : Statement (.edge t) := (packC64_mask_a _ _).trans rfl

theorem blur (s : Nat) : Statement (.blur s) := (packC64_mask_a _ _).trans rfl

theorem gray : Statement .gray := rfl

theorem neg : Statement .neg := rfl

theorem median (r : Nat) : Statement (.median r) := (packC64_mask_a _ _).trans rfl

theorem gamma (g : Nat) : Statement (.gamma g) := (packC64_mask_a _ _).trans rfl

theorem histeq : Statement .histeq := rfl

theorem crop (w h : Nat) : Statement (.crop w h) :=
  (packC64_mask_ab _ _ _).trans rfl

end Sys2Proof.Laws.EncodeMatchesRow
end

