-- ==== Sys2Proof/Tests/Slice0.lean ====
section
/-! SUPPORT. The model's own tests: ill-formed commands, decoding, one step of each command on a vector of
95_test_vectors.md, the host port, and one witness for each statement that has hypotheses. -/

namespace Sys2Proof.Tests

open Sys2Proof.Machine

/-! ## Ill-formed commands: each check of WellFormed refuses one (R113, R118) -/

theorem test_illFormed_create_w : (Instr.create 65536 1).wellFormed = false := by decide
theorem test_illFormed_create_h : (Instr.create 1 65536).wellFormed = false := by decide
theorem test_illFormed_edge_high : (Instr.edge 32768).wellFormed = false := by decide
theorem test_illFormed_edge_low : (Instr.edge (-32769)).wellFormed = false := by decide
theorem test_illFormed_blur : (Instr.blur 65536).wellFormed = false := by decide
theorem test_illFormed_median : (Instr.median 65536).wellFormed = false := by decide
theorem test_illFormed_gamma : (Instr.gamma 65536).wellFormed = false := by decide
theorem test_illFormed_crop_w : (Instr.crop 65536 1).wellFormed = false := by decide
theorem test_illFormed_crop_h : (Instr.crop 1 65536).wellFormed = false := by decide

/-! ## Decoding: one word per command, written from R111-R114 and R120 -/

theorem test_decode_decode : decodeTableWord 64 0x0000000000000001 = some .decode := by decide
theorem test_decode_encode : decodeTableWord 64 0x0000000000000002 = some .encode := by decide
theorem test_decode_create : decodeTableWord 64 0x0000000200030003 = some (.create 3 2) := by decide
theorem test_decode_conv : decodeTableWord 64 0x0000000000000010 = some .conv := by decide
theorem test_decode_sharpen : decodeTableWord 64 0x0000000000000011 = some .sharpen := by decide
theorem test_decode_edge : decodeTableWord 64 0x0000000080000012 = some (.edge (-32768)) := by decide
theorem test_decode_blur : decodeTableWord 64 0x0000000001000013 = some (.blur 256) := by decide
theorem test_decode_gray : decodeTableWord 64 0x0000000000000020 = some .gray := by decide
theorem test_decode_neg : decodeTableWord 64 0x0000000000000021 = some .neg := by decide
theorem test_decode_median : decodeTableWord 64 0x0000000000010022 = some (.median 1) := by decide
theorem test_decode_gamma : decodeTableWord 64 0x0000000002330023 = some (.gamma 563) := by decide
theorem test_decode_histeq : decodeTableWord 64 0x0000000000000024 = some .histeq := by decide
theorem test_decode_crop : decodeTableWord 64 0x0000FFFFFFFF0025 = some (.crop 65535 65535) := by decide

/-- The illegal words of 95 2.1. -/
theorem test_decode_illegal :
    [0x0000000000000000, 0x0000000000010001, 0x0000000000000101, 0x0001000000000020, 0x0000000100000012,
      0x0000000000000026, 0x00000000000000FF].map (decodeTableWord 64) = List.replicate 7 none := by decide

/-- A list of fewer than 8 bytes is no command (R110). -/
theorem test_decode_short : decodeBytes [0x01, 0, 0, 0, 0, 0, 0] = .error .tooShort := by rfl

/-! ## Small states -/

/-- A pixel from 0xRRGGBB. -/
def px (v : Nat) : Pixel := Pixel.ofWord (BitVec.ofNat 32 v)

/-- An image from its rows of 0xRRGGBB. -/
def imageOf (rows : List (List Nat)) : Image :=
  { w := (rows.headD []).length, h := rows.length, rows := rows.map fun row => row.map px }

/-- A gray image from its rows of values. -/
def grayOf (rows : List (List Nat)) : Image := imageOf (rows.map fun row => row.map fun v => 0x010101 * v)

/-- A space that lists the bytes `bs` from address 0 on. -/
def holdingBytes (bs : List Nat) : Memory := { cells := cellsFrom 0 (bs.map (BitVec.ofNat 8)), draw := 0 }

/-- In execution, the image `I` held. -/
def holding (I : Image) : State := { State.reset with phase := .execute, img := some I }

/-- In execution, the stream `bs` in IN_MEM, its first `n` bytes loaded. -/
def loaded (bs : List Nat) (n : Nat) : State :=
  { State.reset with phase := .execute, inMem := holdingBytes bs, inLen := BitVec.ofNat 32 n }

/-- In validation, CP at 0, the command words `ws` in CMD_MEM. -/
def listed (ws : List Nat) : State :=
  { State.reset with
    phase := .validate
    cmdLen := BitVec.ofNat 32 ws.length
    cmdMem := { cells := cellsFrom 0 (ws.flatMap (leBytes 8)), draw := 0 } }

/-- The state after one step that runs the command word `w`. -/
def ran (w : Nat) (s : State) : State :=
  match step (s.withFetchWord 64 w) with
  | .next t => t
  | _ => State.reset

/-- ERR, ERR_CODE and ERR_CMD. -/
def errorOf (s : State) : Bool × Nat × Nat := (s.err, s.errCode.toNat, s.errCmd.toNat)

/-- The 70-byte stream of E1. -/
def s70 : List Nat :=
  [0x42, 0x4D, 0x46, 0, 0, 0, 0, 0, 0, 0, 0x36, 0, 0, 0,
    0x28, 0, 0, 0, 2, 0, 0, 0, 2, 0, 0, 0, 1, 0, 0x18, 0,
    0, 0, 0, 0, 0x10, 0, 0, 0, 0, 0, 0, 0, 0, 0, 0, 0, 0, 0, 0, 0, 0, 0, 0, 0,
    0, 0, 0xFF, 0, 0xFF, 0, 0, 0, 0xFF, 0, 0, 0xFF, 0xFF, 0xFF, 0, 0]

/-- The image of E1, as decoded. -/
def imageE1 : Image := imageOf [[0x0000FF, 0xFFFFFF], [0xFF0000, 0x00FF00]]

/-! ## One step of each command, from the vectors of 95_test_vectors.md -/

/-- E1. -/
theorem test_step_decode : (ran 0x01 (loaded s70 70)).img = some imageE1 := by decide +kernel

/-- 2.2, HEIGHT = -2: top-down. -/
theorem test_step_decode_topDown :
    (ran 0x01 (loaded ((s70.set 22 0xFE).set 23 0xFF |>.set 24 0xFF |>.set 25 0xFF) 70)).img =
      some (imageOf [[0xFF0000, 0x00FF00], [0x0000FF, 0xFFFFFF]]) := by decide +kernel

/-- 2.3, the 1 by 1 image: 58 bytes, the pixel at 54. -/
theorem test_step_encode :
    let t := ran 0x02 (holding (imageOf [[0xFF0000]]))
    (t.outLen, t.outValid, (List.range 4).map fun k => t.readByte .outMem (54 + k)) =
      (58, true, [0x00, 0x00, 0xFF, 0x00]) := by decide +kernel

/-- P2: the bytes of the 2 by 1 file that tell it from another. -/
theorem test_step_encode_header :
    (List.range 40).map (fun k => (ran 0x02 (holding (grayOf [[18, 124]]))).readByte .outMem k) =
      [0x42, 0x4D, 0x3E, 0, 0, 0, 0, 0, 0, 0, 0x36, 0, 0, 0, 0x28, 0, 0, 0, 2, 0, 0, 0, 1, 0, 0, 0, 1, 0, 0x18, 0,
        0, 0, 0, 0, 8, 0, 0, 0, 0, 0] := by decide +kernel

/-- 2.4. -/
theorem test_step_create :
    (ran 0x0000000200030003 (holding imageE1)).img = some (grayOf [[0, 0, 0], [0, 0, 0]]) := by decide +kernel

/-- 2.4, CREATE 1025, 1. -/
theorem test_step_create_capacity : errorOf (ran 0x0000000104010003 State.reset) = (true, 8, 0) := by decide +kernel

/-- 2.5, the kernel 0x4000, 0x8000, 0x4000 on 0, 255, 0. -/
theorem test_step_conv :
    (ran 0x10 { holding (grayOf [[0, 255, 0]]) with
      kw := 3, kh := 1, kmem := holdingBytes [0, 0x40, 0, 0, 0, 0x80, 0, 0, 0, 0x40, 0, 0] }).img =
      some (grayOf [[64, 128, 64]]) := by decide +kernel

/-- 2.5, the kernel -1.0. -/
theorem test_step_conv_negative :
    (ran 0x10 { holding (imageOf [[0xFF0103]]) with kw := 1, kh := 1, kmem := holdingBytes [0, 0, 0xFF, 0xFF] }).img =
      some (imageOf [[0]]) := by decide +kernel

/-- 2.6. -/
theorem test_step_sharpen :
    (ran 0x11 (holding (grayOf [[10, 10, 10], [10, 50, 10], [10, 10, 10]]))).img =
      some (grayOf [[10, 0, 10], [0, 210, 0], [10, 0, 10]]) := by decide +kernel

/-- 2.7, t = 75: luma 76, response 76. -/
theorem test_step_edge :
    (ran 0x00000000004B0012 (holding (imageOf [[0xFF0000, 0, 0]]))).img = some (grayOf [[255, 0, 0]]) := by
  decide +kernel

/-- 2.7, t = -1: white everywhere. -/
theorem test_step_edge_negative :
    (ran 0x00000000FFFF0012 (holding (grayOf [[0, 0, 255]]))).img = some (grayOf [[255, 255, 255]]) := by
  decide +kernel

/-- 2.8, sigma 1.0 on one row. -/
theorem test_step_blur :
    (ran 0x0000000001000013 (holding (grayOf [[0, 0, 0, 255, 0, 0, 0]]))).img =
      some (grayOf [[1, 14, 62, 102, 62, 14, 1]]) := by decide +kernel

/-- 2.8, the weights of sigma 1.5. -/
theorem test_blur_weights : gaussWeights 384 = [17434, 13960, 7167, 2359, 498, 67] := by decide +kernel

/-- 2.9. -/
theorem test_step_gray :
    (ran 0x20 (holding (imageOf [[0xFF0000, 0x00FF00, 0x0000FF], [0x6496C8, 0x0000FA, 0x0004A8]]))).img =
      some (grayOf [[76, 150, 29], [141, 29, 22]]) := by decide +kernel

/-- 2.10. -/
theorem test_step_neg :
    (ran 0x21 (holding (imageOf [[0x000000, 0xFF0000, 0x804001]]))).img =
      some (imageOf [[0xFFFFFF, 0x00FFFF, 0x7FBFFE]]) := by decide +kernel

/-- 2.11. -/
theorem test_step_median :
    (ran 0x0000000000010022 (holding (imageOf [[0x0AC800, 0x1464FF, 0x1E0000]]))).img =
      some (imageOf [[0x0AC800, 0x146400, 0x1E0000]]) := by decide +kernel

/-- 2.11, MEDIAN 0. -/
theorem test_step_median_zero : errorOf (ran 0x22 (holding imageE1)) = (true, 5, 0) := by decide +kernel

/-- 2.12, g = 512. -/
theorem test_step_gamma :
    (ran 0x0000000002000023 (holding (grayOf [[0, 1, 64, 128], [200, 254, 255, 0]]))).img =
      some (grayOf [[0, 16, 128, 181], [226, 254, 255, 0]]) := by decide +kernel

/-- 2.13, four lumas. -/
theorem test_step_histeq :
    (ran 0x24 (holding (imageOf [[0xFF0000, 0x00FF00, 0x0000FF]]))).img = some (grayOf [[128, 255, 0]]) := by
  decide +kernel

/-- 2.13, one luma: the colours stay. -/
theorem test_step_histeq_oneLuma :
    (ran 0x24 (holding (imageOf [[0x640000, 0x003300]]))).img = some (imageOf [[0x640000, 0x003300]]) := by
  decide +kernel

/-- 2.14. -/
theorem test_step_crop :
    (ran 0x0000000100020025 (holding (imageOf [[0x000000, 0x010000, 0x020000], [0x000100, 0x010100, 0x020100]]))).img =
      some (imageOf [[0x000000, 0x010000]]) := by decide +kernel

/-- R258: CROP 0, 1. -/
theorem test_step_crop_zero : errorOf (ran 0x0000000100000025 (holding imageE1)) = (true, 5, 0) := by decide +kernel

/-! ## The host port, from 2.15 and 2.16 -/

/-- 2.15: the pixel (1, 0) of E1. -/
theorem test_port_read : ({ holding imageE1 with phase := .idle, pixX := 1 }).readPixData.1 = 0x00FFFFFF := by decide

/-- 2.15: bits 31:24 are ignored. -/
theorem test_port_write :
    (({ holding (grayOf [[0, 0, 0]]) with phase := .idle, pixX := 1 }).writePixData 0xAB123456).img =
      some (imageOf [[0, 0x123456, 0]]) := by decide

/-- 2.16: a 16-bit read at offset 4. -/
theorem test_port_slverr : (State.reset.hostRead 4 .w16).1 = { data := 0, slverr := true } := by decide

/-- 2.16: an error end with ERR_IE = 0 raises no irq, and a write of IRQ_EN then does. -/
theorem test_irq_level :
    let t := { State.reset with doneIe := true }.endWithError .formatError 0
    (t.irqPendWord, t.irq, (t.writeReg .irqEn 2).irq) = (2, false, true) := by decide

/-- The state a command leaves. -/
def after (i : Instr) (s : State) : State :=
  match exec i s with
  | .next t => t
  | _ => s

theorem exec_after (i : Instr) (s : State) : exec i s = .next (after i s) := by
  rcases exec_cases i s with ⟨e, -, h⟩ | ⟨-, -, h⟩ | ⟨-, -, e, -, h⟩ | ⟨-, -, t, -, h⟩ <;> simp [after, h]

/-- Whether an outcome is a next state, and that state (else `s`). -/
def nextOf (o : Host.Outcome State Fault Refusal) (s : State) : Bool × State :=
  match o with
  | .next t => (true, t)
  | _ => (false, s)

theorem eq_nextOf {o : Host.Outcome State Fault Refusal} {s : State} (h : (nextOf o s).1 = true) :
    o = .next (nextOf o s).2 := by
  cases o <;> first | rfl | cases h

theorem forall_lt_lt {w h : Nat} {P : Nat → Nat → Prop} (hp : ∀ x < w, ∀ y < h, P x y) :
    ∀ x y, x < w → y < h → P x y := fun x y hx hy => hp x hx y hy

/-! ## Witnesses: for each statement with hypotheses, a state and operands that meet them together

Each is named after its statement. Where a statement has clauses, there is one conjunct for each, at a boundary. -/

theorem witness_DecodeOfEncodeIsIdentity :
    [Instr.create 0 65535, .edge (-32768), .edge 32767, .blur 65535, .crop 65535 0].all Instr.wellFormed = true := by
  decide

theorem witness_DecodedWordIsItsEncoding : decodeWord 0x0000FFFFFFFF0025 = .ok (.crop 65535 65535) := by rfl

theorem witness_WordsMatchTheirRow :
    decodeWord 0x0000000080000012 = .ok (.edge (-32768)) ∧
      (0x0000000080000012 : Word64) &&& rowMask (.edge 7) = rowMatch (.edge 7) := ⟨rfl, by decide⟩

/-- One word for each reason of R116. -/
theorem witness_IllegalWordsAreExactlyThese :
    (opcField 0x26).toNat = 0x26 ∧ rsv0Field 0x0101 ≠ 0 ∧ rsv1Field 0x0001000000000020 ≠ 0 ∧
      aField 0x0000000000010001 ≠ 0 ∧ bField 0x0000000100000012 ≠ 0 := by decide

theorem witness_StepRunsDecodedCommand :
    (∃ (s : State) (i : Instr), s.phase ≠ .idle ∧ s.cmdLen.toNat ≤ s.params.cmdCap ∧ s.cp.toNat < s.cmdLen.toNat ∧
        decodeBytes (s.slotBytes s.cp.toNat) = .ok i ∧ s.events = []) ∧
      ∃ (s : State) (i : Instr), s.phase ≠ .idle ∧ s.cmdLen.toNat ≤ s.params.cmdCap ∧ s.cp.toNat < s.cmdLen.toNat ∧
        decodeBytes (s.slotBytes s.cp.toNat) = .ok i ∧ s.events = [.engine] :=
  ⟨⟨listed [0x21], .neg, by decide, by decide, by decide, rfl, rfl⟩,
    ⟨{ listed [0x21, 0x22] with phase := .execute, cp := 1, events := [.engine] }, .median 0, by decide, by decide,
      by decide, rfl, rfl⟩⟩

theorem witness_IllegalWordEndsValidation :
    ∃ (s : State) (d : DecodeError), s.events = [] ∧ s.phase = .validate ∧ s.cmdLen.toNat ≤ s.params.cmdCap ∧
      s.cp.toNat < s.cmdLen.toNat ∧ decodeBytes (s.slotBytes s.cp.toNat) = .error d :=
  ⟨listed [0], .unassignedOpcode, rfl, rfl, by decide, by decide, rfl⟩

/-- The header fields of E1 and of its top-down form, at the least stream length that decodes (R171). -/
theorem witness_DecodeCompletes :
    let ok (s : State) (w off rb : Nat) (hgt : Int) : Bool :=
      let rd := s.readByte .inMem
      let n := s.inLen.toNat
      decide (off = readLE rd 10 4 ∧ hgt = asI32 (readLE rd 22 4) ∧ (w : Int) = asI32 (readLE rd 18 4) ∧
        rb = (3 * w + 3) / 4 * 4 ∧ n ≤ s.params.inCap ∧ 54 ≤ n ∧ rd 0 = 0x42 ∧ rd 1 = 0x4D ∧ 40 ≤ readLE rd 14 4 ∧
        1 ≤ w ∧ hgt ≠ 0 ∧ readLE rd 26 2 = 1 ∧ readLE rd 28 2 = 24 ∧ readLE rd 30 4 = 0 ∧ w ≤ s.params.maxW ∧
        hgt.natAbs ≤ s.params.maxH ∧ w * hgt.natAbs ≤ s.params.maxPixels ∧
        off + (hgt.natAbs - 1) * rb + 3 * w ≤ n)
    ok (loaded s70 68) 2 54 8 2 = true ∧
      ok (loaded ((s70.set 22 0xFE).set 23 0xFF |>.set 24 0xFF |>.set 25 0xFF) 70) 2 54 8 (-2) = true := by
  decide +kernel

/-- For each of the 13 steps of R166, a stream whose first failing step it is (95 2.2). -/
theorem witness_DecodeReportsFirstFailingStep :
    [loaded s70 4194305, loaded s70 13, loaded (s70.set 0 0x58) 70, loaded s70 17, loaded (s70.set 14 39) 70,
      loaded s70 53, loaded (s70.set 18 0) 70, loaded (s70.set 22 0) 70, loaded (s70.set 26 2) 70,
      loaded (s70.set 28 32) 70, loaded (s70.set 30 1) 70, loaded ((s70.set 18 1).set 19 4) 70, loaded s70 67].map
        (fun s => (errorOf (ran 0x01 s)).2.1) = [8, 3, 1, 3, 1, 3, 4, 4, 2, 2, 2, 8, 3] := by decide +kernel

/-- A stream of 70 bytes, and an IN_MEM that differs from it at address 70 only. -/
theorem witness_DecodeReadsOnlyTheStream :
    ∃ (s t : State) (m : Memory), m ≠ s.inMem ∧ m.read .inMem 70 = 1 ∧ s.readByte .inMem 70 = 0 ∧
      (∀ a, a < s.inLen.toNat → m.read .inMem a = s.readByte .inMem a) ∧ exec .decode s = .next t :=
  ⟨loaded (s70 ++ [0]) 70, _, holdingBytes (s70 ++ [1]), by decide, by decide, by decide, by decide +kernel,
    exec_after _ _⟩

theorem witness_EncodeWritesTheFile :
    ∃ (s : State) (I : Image), s.params.Legal ∧ s.phase = .execute ∧ s.img = some I ∧ I.wf ∧
      54 + (3 * I.w + 3) / 4 * 4 * I.h ≤ s.params.outCap :=
  ⟨holding imageE1, imageE1, by decide, rfl, rfl, by decide, by decide⟩

theorem witness_EncodeThenDecodeReturnsImage :
    ∃ (s t u : State) (I : Image), s.params.Legal ∧ s.phase = .execute ∧ s.img = some I ∧ I.wf ∧
      s.params.holds I.w I.h = true ∧ bmpSize I.w I.h ≤ s.params.outCap ∧ bmpSize I.w I.h ≤ s.params.inCap ∧
      exec .encode s = .next t ∧ u.params = s.params ∧ u.phase = .execute ∧ u.inLen = t.outLen ∧
      ∀ a, a < t.outLen.toNat → u.readByte .inMem a = t.readByte .outMem a := by
  exact ⟨holding imageE1, after .encode (holding imageE1),
    { holding imageE1 with
      inLen := 70
      inMem := holdingBytes ((bmpBytes imageE1).map BitVec.toNat) }, imageE1,
    by decide, rfl, rfl, by decide, by decide, by decide, by decide, exec_after _ _, rfl, rfl, by decide +kernel,
    by decide +kernel⟩

/-- It completes; with no image, and with a file of 58 bytes for an OUT_CAP of 57, it ends the run. -/
theorem witness_EncodeFrame :
    (∃ s t, s.img = none ∧ s.phase = .execute ∧ exec .encode s = .next t) ∧
      (∃ s I t, s.phase = .execute ∧ s.img = some I ∧ 54 + (3 * I.w + 3) / 4 * 4 * I.h ≤ s.params.outCap ∧
        exec .encode s = .next t) ∧
      (∃ s I t, s.phase = .execute ∧ s.img = some I ∧ s.params.outCap < 54 + (3 * I.w + 3) / 4 * 4 * I.h ∧
        s.err = false ∧ exec .encode s = .next t ∧ t.err = true) :=
  ⟨⟨{ State.reset with phase := .execute }, _, rfl, rfl, exec_after _ _⟩,
    ⟨holding imageE1, imageE1, _, rfl, rfl, by decide, exec_after _ _⟩,
    ⟨{ holding (imageOf [[0xFF0000]]) with params := { Params.ref with outCap := 57 } }, imageOf [[0xFF0000]], _, rfl,
      rfl, by decide, rfl, exec_after _ _, by decide +kernel⟩⟩

theorem witness_CreateMakesBlackImage :
    ∀ q ∈ [(1, 1), (1024, 1024)], 1 ≤ q.1 ∧ 1 ≤ q.2 ∧ q.1 ≤ (holding imageE1).params.maxW ∧
      q.2 ≤ (holding imageE1).params.maxH ∧ q.1 * q.2 ≤ (holding imageE1).params.maxPixels := by decide

/-- An image held, in execution: the hypotheses of CropKeepsTopLeft, SharpenIsFiveTimesLessNeighbours,
EdgeThresholdsTheLaplacian, GrayWritesLuma, NegComplementsChannels and NegTwiceIsIdentity; GAMMA and CROP add an operand
of at least 1, as here. -/
theorem witness_ImageHeld :
    ∃ (s : State) (I : Image) (g w h : Nat), s.phase = .execute ∧ s.img = some I ∧ I.wf ∧ 1 ≤ g ∧ 1 ≤ w ∧ 1 ≤ h :=
  ⟨holding imageE1, imageE1, 1, 1, 1, rfl, rfl, by decide, by decide, by decide, by decide⟩

/-- A channel and a reading of it, as the statements over pixels take them. -/
theorem witness_Channel :
    ∃ (c : Pixel → Byte) (v : Int → Int → Int) (x y : Nat), IsChannel c ∧ x < imageE1.w ∧ y < imageE1.h ∧
      ∀ u w, v u w = ((c (imageE1.getc u w)).toNat : Int) :=
  ⟨Pixel.g, fun u w => ((imageE1.getc u w).g.toNat : Int), 1, 1, .inr (.inl rfl), by decide, by decide, fun _ _ => rfl⟩

/-- The least and the greatest kernel of REF. -/
theorem witness_ConvComputesClampedSums :
    ∀ k ∈ [1, 15], ∃ (s : State) (I : Image) (kw kh : Nat), s.phase = .execute ∧ s.img = some I ∧ I.wf ∧
      kw = s.kw.toNat ∧ kh = s.kh.toNat ∧ kw % 2 = 1 ∧ kh % 2 = 1 ∧ kw ≤ s.params.kmaxDim ∧ kh ≤ s.params.kmaxDim ∧
      kw = k := by
  intro k hk
  simp only [List.mem_cons, List.not_mem_nil, or_false] at hk
  rcases hk with rfl | rfl
  · exact ⟨{ holding imageE1 with kw := 1, kh := 15 }, imageE1, 1, 15, rfl, rfl, by decide, rfl, rfl, by decide,
      by decide, by decide, by decide, rfl⟩
  · exact ⟨{ holding imageE1 with kw := 15, kh := 1 }, imageE1, 15, 1, rfl, rfl, by decide, rfl, rfl, by decide,
      by decide, by decide, by decide, rfl⟩

/-- The least sigma, and the greatest that REF accepts; the weights as a function of the offset. -/
theorem witness_BlurIsTwoPasses :
    (∀ q ∈ [(1, 1), (2730, 32)], 1 ≤ q.1 ∧ q.2 = max 1 ((3 * q.1 + 255) / 256) ∧
        q.2 ≤ (holding imageE1).params.gaussRmax) ∧
      (holding imageE1).params.Legal ∧ (holding imageE1).img = some imageE1 ∧ imageE1.wf ∧
      ∃ W : Int → Int, ∀ i : Int, W i = ((gaussWeights 1).getD i.natAbs 0 : Int) :=
  ⟨by decide, by decide, rfl, by decide, ⟨_, fun _ => rfl⟩⟩

theorem witness_BlurKeepsUniformImage :
    (1 ≤ 5461 ∧ gaussRadius 5461 ≤ 64) ∧
      ∃ (s : State) (I : Image) (sigma : Nat) (p : Pixel), s.params.Legal ∧ s.phase = .execute ∧ s.img = some I ∧ I.wf ∧
        (∀ x y, x < I.w → y < I.h → I.px x y = p) ∧ 1 ≤ sigma ∧ gaussRadius sigma ≤ s.params.gaussRmax :=
  ⟨by decide, holding (imageOf [[0x070809, 0x070809]]), imageOf [[0x070809, 0x070809]], 2730, px 0x070809, by decide, rfl,
    rfl, by decide, forall_lt_lt (by decide), by decide, by decide⟩

/-- sigma 1.0, the first and the last weight beside the centre. -/
theorem witness_GaussWeightsRoundTheRealOnes :
    ∀ i ∈ [1, 3], ∃ (sigma r : Nat) (e : Nat → ℝ) (Z : ℝ), 1 ≤ sigma ∧ r = gaussRadius sigma ∧ r ≤ 64 ∧
      gaussDecisive sigma = true ∧
      (∀ k, e k = Real.exp (-(32768 * (k : ℝ) ^ 2) / (sigma : ℝ) ^ 2)) ∧
      Z = 1 + 2 * ∑ k ∈ Finset.Icc 1 r, e k ∧ 1 ≤ i ∧ i ≤ r := by
  intro i hi
  simp only [List.mem_cons, List.not_mem_nil, or_false] at hi
  exact ⟨256, 3, fun k => Real.exp (-(32768 * (k : ℝ) ^ 2) / ((256 : Nat) : ℝ) ^ 2), _, by decide, by decide, by decide,
    by decide +kernel, fun _ => rfl, rfl, by omega, by omega⟩

/-- The least and the greatest sigma of a legal configuration. -/
theorem witness_GaussRoundingIsDecisive :
    ∀ sigma ∈ [1, 2730, 5461], 1 ≤ sigma ∧ gaussRadius sigma ≤ 64 := by decide

/-- The least radius, and the greatest of REF. -/
theorem witness_MedianHasMiddleRank :
    ∀ r ∈ [1, 7], 1 ≤ r ∧ r ≤ (holding imageE1).params.medianRmax ∧ imageE1.wf ∧
      ∃ (V : Int × Int → Nat) (win : Finset (Int × Int)),
        win = Finset.Icc (-(r : Int)) r ×ˢ Finset.Icc (-(r : Int)) r ∧
        ∀ q, V q = (imageE1.getc (1 + q.1) (1 + q.2)).b.toNat := by
  intro r hr
  refine ⟨?_, ?_, by decide, _, _, rfl, fun _ => rfl⟩ <;> revert r <;> decide

/-- The least and the greatest gamma. -/
theorem witness_GammaRoundsTheRealPower :
    (holding imageE1).img = some imageE1 ∧ imageE1.wf ∧ ∀ g ∈ [1, 65535], 1 ≤ g := by decide

/-- The image of 95 2.13 with lumas 76, 150, 29. -/
theorem witness_HisteqRemapsLumas :
    ∃ (s : State) (I : Image) (N lo vmin : Nat) (below : Nat → Nat), s.params.Legal ∧ s.phase = .execute ∧
      s.img = some I ∧ I.wf ∧ s.params.holds I.w I.h = true ∧ N = I.w * I.h ∧
      (∀ v, below v =
        ((Finset.range I.w ×ˢ Finset.range I.h).filter fun q => luma (I.px q.1 q.2) ≤ v).card) ∧
      (∃ x y, x < I.w ∧ y < I.h ∧ luma (I.px x y) = vmin) ∧
      (∀ x y, x < I.w → y < I.h → vmin ≤ luma (I.px x y)) ∧ lo = below vmin ∧ lo ≠ N := by
  refine ⟨holding (imageOf [[0xFF0000, 0x00FF00, 0x0000FF]]), imageOf [[0xFF0000, 0x00FF00, 0x0000FF]], 3, 1, 29,
    fun v => _, by decide, rfl, rfl, by decide, by decide, rfl, fun _ => rfl, ⟨2, 0, by decide⟩,
    forall_lt_lt (by decide), ?_, by decide⟩
  decide +kernel

/-- The 2 by 1 image of 95 2.13 with one luma and two colours. -/
theorem witness_HisteqKeepsOneLumaImage :
    ∃ (s : State) (I : Image) (v : Nat), s.params.Legal ∧ s.phase = .execute ∧ s.img = some I ∧ I.wf ∧
      s.params.holds I.w I.h = true ∧ ∀ x y, x < I.w → y < I.h → luma (I.px x y) = v :=
  ⟨holding (imageOf [[0x640000, 0x003300]]), imageOf [[0x640000, 0x003300]], 30, by decide, rfl, rfl, by decide, by decide,
    forall_lt_lt (by decide)⟩

/-- A command with no image; a DECODE and a CREATE that complete. -/
theorem witness_NoImageRaisesInvalidDimensions :
    (∃ (s : State) (i : Instr), s.phase = .execute ∧ s.img = none ∧ staticCheck i s = none ∧ i ≠ .decode ∧
        ∀ w h, i ≠ .create w h) ∧
      (∃ t, t.phase = .execute ∧ exec .decode (loaded s70 70) = .next t) ∧
      ∃ t, (holding imageE1).phase = .execute ∧ t.phase = .execute ∧
        exec (.create 3 2) (holding imageE1) = .next t := by
  exact ⟨⟨{ State.reset with phase := .execute }, .crop 1 1, rfl, rfl, rfl, by decide, by simp⟩,
    ⟨after .decode (loaded s70 70), by decide +kernel, exec_after _ _⟩,
    ⟨after (.create 3 2) (holding imageE1), rfl, by decide +kernel, exec_after _ _⟩⟩

/-- In validation, operands on both sides of each check of the table (R272). -/
theorem witness_StaticChecksFollowTheTable :
    (listed [0x21]).phase = .validate ∧
      [staticCheck (.create 0 5), staticCheck (.create 1025 1), staticCheck (.create 1024 1024),
          staticCheck (.blur 0), staticCheck (.blur 2731), staticCheck (.blur 2730), staticCheck (.median 0),
          staticCheck (.median 8), staticCheck (.median 7), staticCheck (.gamma 0), staticCheck (.gamma 1),
          staticCheck (.crop 0 1), staticCheck (.crop 1 1)].map (fun f => f (listed [0x21])) =
        [some .invalidDimensions, some .capacityExceeded, none, some .invalidParameter, some .capacityExceeded, none,
          some .invalidParameter, some .capacityExceeded, none, some .invalidParameter, none, some .invalidParameter,
          none] ∧
      [(0, 3), (3, 2), (17, 17), (15, 15)].map
          (fun q => staticCheck .conv { listed [0x10] with kw := q.1, kh := q.2 }) =
        [some .invalidParameter, some .invalidParameter, some .capacityExceeded, none] := by
  decide

theorem witness_ImageCommandsFrame :
    ∃ (s t : State) (i : Instr), i ≠ .encode ∧ exec i s = .next t :=
  ⟨holding imageE1, _, .neg, by decide, exec_after _ _⟩

/-- CTRL writes without SRESET: of 0, of CLR_IDX alone, of START alone and of both; an idle and a busy block. -/
theorem witness_StartThroughCtrl :
    [(0 : Word32), 4, 1, 5].map (fun v => (v.getLsbD 1, v.getLsbD 0, v.getLsbD 2)) =
        [(false, false, false), (false, false, true), (false, true, false), (false, true, true)] ∧
      State.reset.phase = .idle ∧ (listed [0x21]).phase ≠ .idle := by decide

/-- CMD_LEN = 257 = CMD_CAP + 1, and the state its error leaves. -/
theorem witness_CommandLengthAboveCapacity :
    ∃ s t : State, s.params.Legal ∧ s.errCmd = 0 ∧ s.phase = .validate ∧ s.params.cmdCap < s.cmdLen.toNat ∧
      engineMove s = .next t ∧ t.errCmd = 0xFFFFFFFF :=
  ⟨{ State.reset with phase := .validate, cmdLen := 257 }, _, by decide, rfl, rfl, by decide,
    eq_nextOf (s := State.reset) (by decide +kernel), by decide +kernel⟩

theorem witness_SuccessEndsTheRun :
    ∃ s : State, s.events = [] ∧ s.phase = .execute ∧ s.cmdLen.toNat ≤ s.cp.toNat :=
  ⟨{ listed [0x21] with phase := .execute, cp := 1 }, rfl, rfl, by decide⟩

theorem witness_EmptyProgramKeepsImage :
    ∃ s : State, s.phase = .idle ∧ s.cmdLen = 0 ∧ s.events = [] ∧ s.img = some imageE1 :=
  ⟨{ holding imageE1 with phase := .idle }, rfl, rfl, rfl, rfl⟩

/-- P3: the second command fails its static check; and a list whose first command is illegal. -/
theorem witness_StaticErrorsComeFirst :
    (∃ (s : State) (k : Nat) (e : ErrKind), s.events = [] ∧ s.phase = .validate ∧ s.cp = 0 ∧
        s.cmdLen.toNat ≤ s.params.cmdCap ∧ k < s.cmdLen.toNat ∧ (∀ j, j < k → slotError s j = none) ∧
        slotError s k = some e) ∧
      slotError (listed [0]) 0 = some .illegalCommand :=
  ⟨⟨listed [0x01, 0x13], 1, .invalidParameter, rfl, rfl, rfl, by decide, by decide, by decide, by decide⟩, by decide⟩

theorem witness_SteppingIsTheWholeRun :
    ∃ s : State, s.events = [] ∧ s.phase = .validate ∧ s.cp = 0 ∧ s.cmdLen = 2 :=
  ⟨listed [0x01, 0x13], rfl, rfl, rfl, by decide⟩

/-- The reset state is good. -/
theorem safe_reset : Safe State.reset where
  legal := by decide
  memories := by intro space; cases space <;> decide
  image := by intro I h; cases h
  notBoth := by decide
  busyClear := by decide
  noError := by decide
  errCodeLegal := by decide
  errorDiscards := by decide
  outputLength := by decide
  outputDone := by decide
  noOutput := by decide
  cpLegal := by decide
  listFits := by decide
  tables := by decide +kernel

theorem reset_memories (space : Space) :
    (State.reset.mem space).wf ∧ (State.reset.mem space).within (State.reset.params.sizeOf space) :=
  safe_reset.memories space

/-- A good state in validation. -/
theorem safe_listed : Safe (listed [0x01, 0x13]) where
  legal := by decide
  memories := by
    intro space
    cases space
    · exact reset_memories .kmem
    · decide
    · exact reset_memories .inMem
    · exact reset_memories .outMem
  image := by intro I h; cases h
  notBoth := by decide
  busyClear := by decide
  noError := by decide
  errCodeLegal := by decide
  errorDiscards := by decide
  outputLength := by decide
  outputDone := by decide
  noOutput := by decide
  cpLegal := by decide
  listFits := by decide
  tables := safe_reset.tables

/-- EveryRunEnds, and BusyReads. -/
theorem witness_EveryRunEnds :
    ∃ s : State, Safe s ∧ s.events = [] ∧ s.phase ≠ .idle ∧ s.busy = true ∧
      targetOf (s.params.offset 0x01000000) = .memory .inMem 0 ∧ accessOk (s.params.offset 0x01000000) .w8 = true :=
  ⟨listed [0x01, 0x13], safe_listed, rfl, by decide, rfl, by decide, by decide⟩

theorem witness_ResetIsSafe :
    Params.ref.Legal ∧
      ({ base := 0xFC000000, inCap := 54, outCap := 54, cmdCap := 1, maxW := 1, maxH := 1, maxPixels := 1, kmaxDim := 3,
         gaussRmax := 1, medianRmax := 1 } : Params).Legal ∧
      ({ base := 0x04000000, inCap := 16777216, outCap := 16777216, cmdCap := 8192, maxW := 65535, maxH := 65535,
         maxPixels := 4294836225, kmaxDim := 31, gaussRmax := 64, medianRmax := 15 } : Params).Legal := by decide

theorem witness_EveryStepKeepsValidated :
    ∃ s t : State, Safe s ∧ Validated s ∧ step s = .next t :=
  ⟨listed [0x01, 0x13], _, safe_listed, ⟨fun _ k hk => absurd hk (Nat.not_lt_zero k), fun h => by cases h⟩,
    eq_nextOf (s := State.reset) (by decide +kernel)⟩

/-- The reset state, idle and good, with no image; and with one, DONE and a valid output. -/
theorem witness_IdleRegistersAgree :
    (∃ s : State, Safe s ∧ s.busy = false ∧ s.img = none) ∧
      ∃ s : State, Safe s ∧ s.busy = false ∧ s.img = some imageE1 ∧ s.outValid = true := by
  refine ⟨⟨State.reset, safe_reset, rfl, rfl⟩,
    ⟨{ State.reset with img := some imageE1, done := true, outValid := true, outLen := 70 }, ?_, rfl, rfl, rfl⟩⟩
  exact {
    legal := by decide
    memories := by
      intro space
      cases space
      · exact reset_memories .kmem
      · exact reset_memories .cmdMem
      · exact reset_memories .inMem
      · exact reset_memories .outMem
    image := by intro I h; cases h; decide
    notBoth := by decide
    busyClear := by decide
    noError := by decide
    errCodeLegal := by decide
    errorDiscards := by decide
    outputLength := by decide
    outputDone := by decide
    noOutput := by decide
    cpLegal := by decide
    listFits := by decide
    tables := safe_reset.tables }

/-- EngineNeverWritesItsInputs, with a move that writes OUT_MEM, and an idle block. -/
theorem witness_EngineNeverWritesItsInputs :
    (∃ s t : State, engineMove s = .next t ∧ t.outMem ≠ s.outMem) ∧ State.reset.phase = .idle :=
  ⟨⟨(holding imageE1).withFetchWord 64 0x02, _, eq_nextOf (s := State.reset) (by decide +kernel), by decide +kernel⟩,
    rfl⟩

/-- A misaligned access, a narrow register access, a narrow KMEM access, and the first byte above KMEM. -/
theorem witness_RejectedAccessHasNoEffect :
    State.reset.params.offset 2 % Width.bytes .w32 ≠ 0 ∧ State.reset.params.offset 0x4 = 4 ∧
      Width.w16 ≠ .w32 ∧ State.reset.params.offset 0x1FFF < 0x2000 ∧
      ¬(State.reset.params.offset 0x2000 % Width.bytes .w8 ≠ 0 ∨
        (Width.w8 ≠ .w32 ∧ State.reset.params.offset 0x2000 < 0x2000)) := by decide

/-- The first and the last offset of each unmapped range, for REF (no IN_MEM or OUT_MEM window of 16 MiB is full), and
narrow accesses at both ends of those from 0x2000 on. -/
theorem witness_UnmappedReadsZero :
    Safe State.reset ∧
      (∀ off ∈ [0x58, 0xFFC, 0x2000, 0xFFFC, 0x20000, 0xFFFFFC, 0x3000000, 0xFFFFFFFC, 0x1000000 + 4194304, 0x1FFFFFC,
          0x2000000 + 4194304, 0x2FFFFFC, 0x10000 + 2048, 0x1FFFC, 0x1000 + 900, 0x1FFC],
        State.reset.params.offset (BitVec.ofNat 32 off) = off ∧ off % Width.bytes .w32 = 0) ∧
      ∀ off ∈ [0x2000, 0xFFFF, 0x1000000 + 4194304, 0x1FFFFFF, 0x10000 + 2048, 0x1FFFF, 0xFFFFFFFF],
        State.reset.params.offset (BitVec.ofNat 32 off) = off ∧ off % Width.bytes .w8 = 0 ∧ 0x2000 ≤ off := by
  exact ⟨safe_reset, by decide, by decide⟩

/-- The first and the last byte of IN_MEM, the last word of KMEM, a half-word of CMD_MEM; for the reads also the first and
the last byte of OUT_MEM. -/
theorem witness_HostMemoryReadsWhatItWrote :
    let meets (q : Word32 × Width × Space × Nat) : Bool :=
      decide (targetOf (State.reset.params.offset q.1) = .memory q.2.2.1 q.2.2.2) &&
        accessOk (State.reset.params.offset q.1) q.2.1 &&
        decide (q.2.2.2 + q.2.1.bytes ≤ State.reset.params.sizeOf q.2.2.1)
    State.reset.busy = false ∧
      (∀ q ∈ [((0x01000000 : Word32), Width.w8, Space.inMem, 0), (0x013FFFFF, .w8, .inMem, 4194303),
        (0x00001380, .w32, .kmem, 896), (0x00010000, .w16, .cmdMem, 0)], meets q = true ∧ q.2.2.1 ≠ .outMem) ∧
      ∀ q ∈ [((0x02000000 : Word32), Width.w32, Space.outMem, 0), (0x023FFFFF, .w8, .outMem, 4194303)],
        meets q = true := by decide

theorem witness_HostCannotWriteOutMem :
    targetOf (State.reset.params.offset 0x02000000) = .memory .outMem 0 ∧
      State.reset.params.offset 0x02000000 % Width.bytes .w32 = 0 := by decide

/-- The first and the last offset of the register map; an idle block without and with an image; a busy one. -/
theorem witness_RegistersReadBack :
    State.reset.params.offset 0 = 0x00 ∧ State.reset.params.offset 0x54 = 0x54 ∧ State.reset.busy = false ∧
      State.reset.img = none ∧ { holding imageE1 with phase := .idle }.busy = false ∧
      { holding imageE1 with phase := .idle }.img = some imageE1 ∧ (listed [0x21]).busy = true := by decide

/-- A busy block and writes of CTRL without SRESET, of CMD_LEN and of a byte of IN_MEM. -/
theorem witness_BusyDropsHostWrites :
    (listed [0x01]).busy = true ∧
      ∀ q ∈ [((0x00000000 : Word32), (5 : Word32), Width.w32), (0x14, 2, .w32), (0x01000000, 2, .w8)],
        ¬(q.2.2 = .w32 ∧
          (((listed [0x01]).params.offset q.1 = 0 ∧ q.2.1.getLsbD 1 = true) ∨
            (listed [0x01]).params.offset q.1 = 0x34 ∨ (listed [0x01]).params.offset q.1 = 0x38)) := by decide

/-- The last pixel, the first column outside, and no image. -/
theorem witness_PixelPortAccesses :
    (∃ s : State, s.busy = false ∧ s.img = some imageE1 ∧ imageE1.wf ∧ s.pixX.toNat < imageE1.w ∧
        s.pixY.toNat < imageE1.h ∧ s.pixX = 1 ∧ s.pixY = 1) ∧
      (∃ s : State, s.busy = false ∧ s.img = some imageE1 ∧ s.pixX = 2 ∧
        ∀ I, s.img = some I → ¬(s.pixX.toNat < I.w ∧ s.pixY.toNat < I.h)) ∧
      ∃ s : State, s.busy = false ∧ ∀ I, s.img = some I → ¬(s.pixX.toNat < I.w ∧ s.pixY.toNat < I.h) :=
  ⟨⟨{ holding imageE1 with phase := .idle, pixX := 1, pixY := 1 }, rfl, rfl, by decide, by decide, by decide, rfl, rfl⟩,
    ⟨{ holding imageE1 with phase := .idle, pixX := 2 }, rfl, rfl, rfl, by intro I h; cases h; decide⟩,
    ⟨State.reset, rfl, by intro I h; cases h⟩⟩

/-- A CTRL write with CLR_IDX to an idle block clears IDX_ERR. -/
theorem witness_IndexErrorIsSticky :
    ∃ s t : State, s.idxErr = true ∧ step s = .next t ∧ t.idxErr = false :=
  ⟨{ State.reset with idxErr := true, events := [.host (.write 0 .w32 4)] }, _, rfl,
    eq_nextOf (s := State.reset) (by decide +kernel), by decide +kernel⟩

/-- The end of a run with success and one with an error, from busy states; DONE_IP and ERR_IP cleared by a write of their
bits. -/
theorem witness_PendingIsSetByRunEnds :
    (∃ s t : State, step s = .next t ∧ engineMove s = .next t ∧ s.phase ≠ .idle ∧ t.phase = .idle ∧
        s.doneIp = false ∧ t.doneIp = true) ∧
      (∃ s t : State, step s = .next t ∧ engineMove s = .next t ∧ s.phase ≠ .idle ∧ t.phase = .idle ∧
        s.errIp = false ∧ t.errIp = true) ∧
      (∃ s t : State, step s = .next t ∧ s.doneIp = true ∧ t.doneIp = false) ∧
      ∃ s t : State, step s = .next t ∧ s.errIp = true ∧ t.errIp = false := by
  refine ⟨⟨{ State.reset with phase := .execute }, _, eq_nextOf (s := State.reset) (by decide +kernel), rfl, by decide,
      by decide +kernel, rfl, by decide +kernel⟩,
    ⟨{ State.reset with phase := .validate, cmdLen := 257 }, _, eq_nextOf (s := State.reset) (by decide +kernel), rfl,
      by decide, by decide +kernel, rfl, by decide +kernel⟩,
    ⟨{ State.reset with doneIp := true, events := [.host (.write 0x38 .w32 1)] }, _,
      eq_nextOf (s := State.reset) (by decide +kernel), rfl, by decide +kernel⟩,
    ⟨{ State.reset with errIp := true, events := [.host (.write 0x38 .w32 2)] }, _,
      eq_nextOf (s := State.reset) (by decide +kernel), rfl, by decide +kernel⟩⟩

/-- A write of IRQ_PEND at the moment of a success end, and of an error end; a write of CTRL with SRESET at the moment of a
success end. -/
theorem witness_SetWinsOverClear :
    (∃ (s : State) (addr d : Word32) (es : List Event), s.events = .both (.write addr .w32 d) :: es ∧
        s.params.offset addr = 0x38 ∧ s.phase = .execute ∧ s.cmdLen.toNat ≤ s.cp.toNat) ∧
      (∃ (s u : State) (addr d : Word32) (es : List Event), Safe s ∧ s.events = .both (.write addr .w32 d) :: es ∧
        s.params.offset addr = 0x38 ∧ s.phase ≠ .idle ∧ engineMove { s with events := es } = .next u ∧ u.err = true) ∧
      ∃ (s : State) (addr d : Word32) (es : List Event), s.events = .both (.write addr .w32 d) :: es ∧
        s.params.offset addr = 0 ∧ d.getLsbD 1 = true ∧ s.phase = .execute ∧ s.cmdLen.toNat ≤ s.cp.toNat := by
  refine ⟨⟨{ State.reset with phase := .execute, events := [.both (.write 0x38 .w32 3)] }, 0x38, 3, [], rfl, by decide,
      rfl, by decide⟩,
    ⟨{ listed [0x01, 0x13] with cp := 1, events := [.both (.write 0x38 .w32 3)] }, _, 0x38, 3, [],
      { safe_listed with cpLegal := by decide }, rfl, by decide, by decide,
      eq_nextOf (s := State.reset) (by decide +kernel), by decide +kernel⟩,
    ⟨{ State.reset with phase := .execute, events := [.both (.write 0 .w32 2)] }, 0, 2, [], rfl, by decide, by decide,
      rfl, by decide⟩⟩

/-- A hardware reset of an idle block, and a power-on of a busy one. -/
theorem witness_ResetValues :
    (∃ (s : State) (es : List Event), s.events = .hardwareReset :: es ∧ s.busy = false ∧ s.img = some imageE1) ∧
      ∃ (s : State) (es : List Event), s.events = .powerOn :: es ∧ s.busy = true :=
  ⟨⟨{ holding imageE1 with phase := .idle, events := [.hardwareReset] }, [], rfl, rfl, rfl⟩,
    ⟨{ listed [0x01] with events := [.powerOn] }, [], rfl, rfl⟩⟩

theorem witness_SoftResetClearsRegisters : (2 : Word32).getLsbD 1 = true ∧ (7 : Word32).getLsbD 1 = true := by decide

/-- Each of the three resets; a busy block whose list has an ENCODE, and one whose list has none. -/
theorem witness_ResetAbandonsTheRun :
    (∀ e ∈ [Event.hardwareReset, .host (.write 0 .w32 2), .both (.write 0 .w32 7)],
        ({ listed [0x01, 0x02] with events := [e] } : State).busy = true ∧
          (e = .hardwareReset ∨ ∃ addr d, (e = .host (.write addr .w32 d) ∨ e = .both (.write addr .w32 d)) ∧
            (listed [0x01, 0x02]).params.offset addr = 0 ∧ d.getLsbD 1 = true)) ∧
      (∃ k, k < (listed [0x01, 0x02]).cmdLen.toNat ∧ k < (listed [0x01, 0x02]).params.cmdCap ∧
        (listed [0x01, 0x02]).slotCommand k = .ok .encode) ∧
      ∀ k, k < (listed [0x01]).cmdLen.toNat → k < (listed [0x01]).params.cmdCap →
        (listed [0x01]).slotCommand k ≠ .ok .encode := by
  refine ⟨?_, ⟨1, by decide, by decide, rfl⟩, ?_⟩
  · intro e he
    simp only [List.mem_cons, List.not_mem_nil, or_false] at he
    rcases he with rfl | rfl | rfl
    · exact ⟨rfl, .inl rfl⟩
    · exact ⟨rfl, .inr ⟨0, 2, .inl rfl, by decide, by decide⟩⟩
    · exact ⟨rfl, .inr ⟨0, 7, .inr rfl, by decide, by decide⟩⟩
  · intro k hk _ h
    obtain rfl : k = 0 := Nat.lt_one_iff.1 hk
    cases h

end Sys2Proof.Tests
end

/-! Proofs of the statements about reset (R7, R341) and about the host's memory windows (R80-R88). -/

namespace Sys2Proof.Machine

/-! ## The reset state -/

/-- Every byte space of the reset state is a fresh one, whatever the parameters (R342). -/
theorem State.reset_withParams_mem (p : Params) (space : Space) :
    ({ State.reset with params := p } : State).mem space = Memory.fresh 0 := by
  cases space <;> rfl

/-- The reset state meets every invariant of R60 whatever legal parameters the implementation has. -/
theorem safe_reset_withParams {p : Params} (hp : p.Legal) : Safe { State.reset with params := p } where
  legal := hp
  memories space := by
    rw [State.reset_withParams_mem]
    exact ⟨Memory.fresh_wf 0, Memory.fresh_within 0 _⟩
  image := nofun
  notBoth := nofun
  busyClear _ := ⟨rfl, rfl⟩
  noError _ := ⟨rfl, rfl⟩
  errCodeLegal := .inl (Nat.zero_le _)
  errorDiscards := nofun
  outputLength := nofun
  outputDone _ := nofun
  noOutput _ := rfl
  cpLegal := Nat.zero_le _
  listFits := nofun
  tables := ⟨List.length_replicate, List.length_replicate, List.length_replicate, List.length_replicate,
    List.length_replicate⟩

theorem Params.ref_legal : Params.ref.Legal := by decide

/-- An idle block has no run of which validation could have established anything. -/
theorem validated_of_idle {s : State} (h : s.phase = .idle) : Validated s :=
  ⟨fun hv => by simp [h] at hv, fun hx => by simp [h] at hx⟩

/-- Settles O42: the reset state is that of REF, one of the legal configurations, and it is idle. -/
theorem resetIsSafe : Obligations.ResetIsSafe :=
  ⟨safe_reset_withParams Params.ref_legal, validated_of_idle rfl, fun _ hp => safe_reset_withParams hp⟩

/-! ## Bytes read as one number, and after a write (R14) -/

/-- `MemRead` depends on the bytes of its range alone. -/
theorem readLE_congr {f g : Nat → Byte} {a n : Nat} (h : ∀ k < n, f (a + k) = g (a + k)) :
    readLE f a n = readLE g a n :=
  congrArg leNat (List.map_congr_left fun k hk => h k (List.mem_range.1 hk))

/-- Reading the range just written gives the bytes written, as one number. -/
theorem readLE_write (space : Space) (m : Memory) (a : Nat) (bs : List Byte) :
    readLE ((m.write a bs).read space) a bs.length = leNat bs := by
  refine congrArg leNat (List.ext_getElem (by simp) fun k _ hk => ?_)
  simp [Memory.read_write_same space m a bs k hk]

section
variable {s : State} {space : Space} {a n : Nat}

@[simp] theorem State.withMem_busy (m : Memory) : (s.withMem space m).busy = s.busy := by
  simp [State.busy]

@[simp] theorem State.readByte_withMem_same (m : Memory) (x : Nat) :
    (s.withMem space m).readByte space x = m.read space x := by
  simp [State.readByte]

theorem State.readByte_withMem_other {other : Space} (m : Memory) (x : Nat) (h : other ≠ space) :
    (s.withMem space m).readByte other x = s.readByte other x := by
  simp only [State.readByte, State.withMem_mem_other s space other m h]

/-- A little-endian number reads back, cut to the bytes written (R14). -/
theorem State.memRead_withMem_write (m : Memory) (v : Nat) :
    (s.withMem space (m.write a (leBytes n v))).memRead space a n = v % 256 ^ n :=
  calc (s.withMem space (m.write a (leBytes n v))).memRead space a n
    _ = readLE ((m.write a (leBytes n v)).read space) a n := readLE_congr fun _ _ => State.readByte_withMem_same _ _
    _ = leNat (leBytes n v) := by simpa using readLE_write space m a (leBytes n v)
    _ = v % 256 ^ n := leNat_leBytes n v

/-- A write to one space leaves every byte outside the range written, in that space and in the others. -/
theorem State.readByte_withMem_write_outside (bs : List Byte) {other : Space} {x : Nat}
    (h : other = space → x < a ∨ a + bs.length ≤ x) :
    (s.withMem space ((s.mem space).write a bs)).readByte other x = s.readByte other x := by
  by_cases hsp : other = space
  · subst hsp
    rw [State.readByte_withMem_same, Memory.read_write_other _ _ _ _ _ (h rfl), State.readByte]
  · exact State.readByte_withMem_other _ x hsp

/-! ## An accepted access of implemented bytes while idle (R80-R88) -/

/-- While idle, a window read whose bytes are all implemented is `MemRead` (R82). -/
theorem State.hostMemRead_of_idle (hb : s.busy = false) (hn : a + n ≤ s.params.sizeOf space) :
    s.hostMemRead space a n = BitVec.ofNat 32 (s.memRead space a n) := by
  have himpl : readLE (fun k => if k < s.params.sizeOf space then s.readByte space k else 0) a n =
      s.memRead space a n :=
    readLE_congr fun k hk => if_pos (by omega)
  simp only [State.hostMemRead, hb, Bool.false_eq_true, if_false, himpl]

/-- While idle, a window write whose bytes are all implemented is `MemWrite` (R82), but for OUT_MEM (R86). -/
theorem State.hostMemWrite_of_idle (hb : s.busy = false) (ho : space ≠ .outMem)
    (hn : a + n ≤ s.params.sizeOf space) (d : Word32) :
    s.hostMemWrite space a n d = s.withMem space ((s.mem space).write a (leBytes n d.toNat)) := by
  have hall : (leBytes n d.toNat).take (s.params.sizeOf space - a) = leBytes n d.toNat :=
    List.take_of_length_le (by rw [leBytes_length]; omega)
  simp [State.hostMemWrite, hb, ho, hall]

variable {addr : Word32} {width : Width}

/-- An accepted read of a memory window answers the window's bytes and leaves the state (R84, R87). -/
theorem State.hostRead_memory (ht : targetOf (s.params.offset addr) = .memory space a)
    (hok : accessOk (s.params.offset addr) width = true) :
    s.hostRead addr width = (busOk (s.hostMemRead space a width.bytes), s) := by
  simp only [State.hostRead, hok, ht, if_true]

/-- An accepted write of a memory window is the write of the window (R84, R87). -/
theorem State.hostWrite_memory (ht : targetOf (s.params.offset addr) = .memory space a)
    (hok : accessOk (s.params.offset addr) width = true) (d : Word32) :
    s.hostWrite addr width d = (busOk 0, s.hostMemWrite space a width.bytes d) := by
  simp only [State.hostWrite, hok, ht, if_true]

/-- While idle, an accepted read of implemented bytes answers them and leaves the state (R82, R87). -/
theorem State.hostRead_of_idle (hb : s.busy = false) (ht : targetOf (s.params.offset addr) = .memory space a)
    (hok : accessOk (s.params.offset addr) width = true) (hn : a + width.bytes ≤ s.params.sizeOf space) :
    s.hostRead addr width = (busOk (BitVec.ofNat 32 (s.memRead space a width.bytes)), s) := by
  rw [State.hostRead_memory ht hok, State.hostMemRead_of_idle hb hn]

end

/-- Settles O48: an accepted write of implemented bytes is one `withMem`, which keeps the parameters and PHASE, so
that the read after it is accepted at the same bytes and finds what the write stored there. -/
theorem hostMemoryReadsWhatItWrote : Obligations.HostMemoryReadsWhatItWrote := by
  refine ⟨?_, fun s addr width space a hb ht hok hn => State.hostRead_of_idle hb ht hok hn⟩
  intro s t addr d width space a hb ht ho hok hn hw
  obtain rfl : t = s.withMem space ((s.mem space).write a (leBytes width.bytes d.toNat)) := by
    rw [hw, State.hostWrite_memory ht hok, State.hostMemWrite_of_idle hb ho hn]
  constructor
  · rw [State.hostRead_of_idle (space := space) (a := a) (by simpa using hb) (by simpa using ht) (by simpa using hok)
      (by simpa using hn), State.memRead_withMem_write]
    rfl
  · intro other x hx
    exact State.readByte_withMem_write_outside _ (by simpa using hx)

end Sys2Proof.Machine

/-! Proofs of the statements about what the engine keeps (R89-R96), about rejected accesses and writes of OUT_MEM
(R85, R86) and about reads while the block is busy (R88). -/

namespace Sys2Proof.Machine

/-! ## What an engine move keeps (R90, R96) -/

/-- From `s` to `t` the memories and registers that R90 calls the engine's inputs are as they were. -/
def KeepsInputs (s t : State) : Prop :=
  t.cmdMem = s.cmdMem ∧ t.kmem = s.kmem ∧ t.inMem = s.inMem ∧ t.kw = s.kw ∧ t.kh = s.kh ∧ t.cmdLen = s.cmdLen ∧
    t.inLen = s.inLen

section
variable {s t : State}

theorem KeepsInputs.refl (s : State) : KeepsInputs s s := ⟨rfl, rfl, rfl, rfl, rfl, rfl, rfl⟩

theorem KeepsInputs.endWithError (e : ErrKind) (k : Word32) : KeepsInputs s (s.endWithError e k) :=
  ⟨rfl, rfl, rfl, rfl, rfl, rfl, rfl⟩

theorem KeepsInputs.advance (h : KeepsInputs s t) : KeepsInputs s t.advance := h

theorem executeCommand_keepsInputs {i : Instr} (h : executeCommand i s = .ok t) : KeepsInputs s t := by
  obtain ⟨⟨-, hcmdLen, hinLen, hkw, hkh, -, -⟩, ⟨hcmdMem, hkmem, hinMem, -⟩, -, -⟩ := executeCommand_frame h
  exact ⟨hcmdMem, hkmem, hinMem, hkw, hkh, hcmdLen, hinLen⟩

theorem executeCommand_outMem {i : Instr} (h : executeCommand i s = .ok t) (hi : i ≠ .encode) :
    t.outMem = s.outMem := by
  obtain ⟨-, ⟨-, -, -, hout⟩, -, -⟩ := executeCommand_frame h
  exact hout hi

/-- A command keeps the inputs, and it writes OUT_MEM only as an ENCODE that VALIDATE does not merely check. -/
theorem exec_keepsInputs {i : Instr} (h : exec i s = .next t) :
    KeepsInputs s t ∧ (t.outMem ≠ s.outMem → i = .encode ∧ s.phase ≠ .validate) := by
  rcases exec_cases i s with ⟨e, -, he⟩ | ⟨-, -, he⟩ | ⟨-, -, e, -, he⟩ | ⟨-, hp, u, hu, he⟩ <;>
    obtain rfl := Host.Outcome.next.inj (he.symm.trans h)
  · exact ⟨.endWithError e _, fun hne => absurd rfl hne⟩
  · exact ⟨(KeepsInputs.refl s).advance, fun hne => absurd rfl hne⟩
  · exact ⟨.endWithError e _, fun hne => absurd rfl hne⟩
  · refine ⟨(executeCommand_keepsInputs hu).advance, fun hne => ⟨?_, hp⟩⟩
    by_contra hi
    exact hne (executeCommand_outMem (t := u) hu hi)

/-- The move of one slot keeps the inputs, and it writes OUT_MEM only where the slot holds ENCODE. -/
theorem runSlot_keepsInputs (h : runSlot s = .next t) :
    KeepsInputs s t ∧
      (t.outMem ≠ s.outMem → s.slotCommand s.cp.toNat = .ok .encode ∧ s.phase ≠ .validate) := by
  rcases runSlot_cases s with ⟨-, hr⟩ | ⟨-, -, hr⟩ | ⟨-, i, hi, hr⟩ <;> rw [hr] at h
  · cases h
  · obtain rfl := Host.Outcome.next.inj h
    exact ⟨.endWithError _ _, fun hne => absurd rfl hne⟩
  · obtain ⟨hk, ho⟩ := exec_keepsInputs h
    refine ⟨hk, fun hne => ?_⟩
    obtain ⟨rfl, hp⟩ := ho hne
    exact ⟨hi, hp⟩

/-- Every engine move keeps the inputs, and it writes OUT_MEM only to execute an ENCODE at CP. -/
theorem engineMove_keepsInputs (h : engineMove s = .next t) :
    KeepsInputs s t ∧
      (t.outMem ≠ s.outMem → s.slotCommand s.cp.toNat = .ok .encode ∧ s.phase = .execute) := by
  rcases engineMove_cases s with ⟨-, hm⟩ | ⟨-, -, hm⟩ | ⟨hp, -, -, hm⟩ | ⟨-, -, -, hm⟩ | ⟨hp, -, hm⟩ | ⟨-, -, hm⟩ <;>
    rw [hm] at h
  -- The two moves of a slot, in VALIDATE and in EXECUTE; the other four write no memory.
  case inr.inr.inl =>
    obtain ⟨hk, ho⟩ := runSlot_keepsInputs h
    exact ⟨hk, fun hne => absurd hp (ho hne).2⟩
  case inr.inr.inr.inr.inl =>
    obtain ⟨hk, ho⟩ := runSlot_keepsInputs h
    exact ⟨hk, fun hne => ⟨(ho hne).1, hp⟩⟩
  all_goals
    obtain rfl := Host.Outcome.next.inj h
    exact ⟨⟨rfl, rfl, rfl, rfl, rfl, rfl, rfl⟩, fun hne => absurd rfl hne⟩

theorem engineMove_of_idle (h : s.phase = .idle) : engineMove s = .next s := by
  simp only [engineMove, h]

end

/-- Settles O45: only the execution of a command can write a memory, only ENCODE's writes one, and it is OUT_MEM. -/
theorem engineNeverWritesItsInputs : Obligations.EngineNeverWritesItsInputs := by
  refine ⟨fun s t h => ?_, fun s => engineMove_of_idle⟩
  obtain ⟨⟨hcmdMem, hkmem, hinMem, hkw, hkh, hcmdLen, hinLen⟩, hout⟩ := engineMove_keepsInputs h
  exact ⟨hcmdMem, hkmem, hinMem, hkw, hkh, hcmdLen, hinLen, hout⟩

/-! ## Which accesses are rejected (R85) -/

/-- The registers and KMEM, all that lies below offset 0x2000, insist on 32 bits; nothing above does (R85; log 18). -/
theorem targetOf_accepts_iff (off : Nat) (width : Width) :
    (targetOf off).accepts width = true ↔ width = .w32 ∨ 0x2000 ≤ off := by
  rcases Nat.lt_or_ge off 0x2000 with hlow | hhigh
  · have htgt : (targetOf off).accepts width = (width == .w32) := by
      unfold targetOf
      split_ifs <;> rfl
    simp [htgt, hlow]
  · have htgt : (targetOf off).accepts width = true := by
      have hreg : ¬off < 0x1000 := by omega
      simp only [targetOf, hreg, Nat.not_lt.2 hhigh, if_false]
      split_ifs <;> rfl
    exact iff_of_true htgt (.inr hhigh)

theorem accessOk_iff (off : Nat) (width : Width) :
    accessOk off width = true ↔ off % width.bytes = 0 ∧ (width = .w32 ∨ 0x2000 ≤ off) := by
  simp only [accessOk, Bool.and_eq_true, decide_eq_true_eq, targetOf_accepts_iff]

theorem accessOk_eq_false_iff (off : Nat) (width : Width) :
    accessOk off width = false ↔ off % width.bytes ≠ 0 ∨ (width ≠ .w32 ∧ off < 0x2000) := by
  rw [← Bool.not_eq_true, accessOk_iff, not_and_or, not_or, Nat.not_le]

section
variable {s : State} {addr : Word32} {width : Width}

theorem State.hostRead_rejected (h : accessOk (s.params.offset addr) width = false) :
    s.hostRead addr width = (busError, s) := by
  simp only [State.hostRead, h, Bool.false_eq_true, if_false]

theorem State.hostWrite_rejected (h : accessOk (s.params.offset addr) width = false) (d : Word32) :
    s.hostWrite addr width d = (busError, s) := by
  simp only [State.hostWrite, h, Bool.false_eq_true, if_false]

/-- A read whose access is accepted completes without error, whatever it names (R84). -/
theorem State.hostRead_slverr (h : accessOk (s.params.offset addr) width = true) :
    (s.hostRead addr width).1.slverr = false := by
  simp only [State.hostRead, h, if_true]
  split
  · split <;> rfl
  · rfl
  · rfl

/-- A write whose access is accepted completes without error, whatever it names (R84). -/
theorem State.hostWrite_slverr (h : accessOk (s.params.offset addr) width = true) (d : Word32) :
    (s.hostWrite addr width d).1.slverr = false := by
  simp only [State.hostWrite, h, if_true]
  split
  · split <;> rfl
  · rfl
  · rfl

end

/-- Settles O46: R85's condition is when `accessOk` fails, and PHASE plays no part in it. -/
theorem rejectedAccessHasNoEffect : Obligations.RejectedAccessHasNoEffect := by
  rintro s addr d width off rfl
  split_ifs with hbad
  · have hno := (accessOk_eq_false_iff _ _).2 hbad
    exact ⟨State.hostRead_rejected hno, State.hostWrite_rejected hno d⟩
  · have hok := Bool.eq_true_of_not_eq_false (mt (accessOk_eq_false_iff _ _).1 hbad)
    exact ⟨State.hostRead_slverr hok, State.hostWrite_slverr hok d⟩

/-! ## Writes of OUT_MEM (R86) -/

/-- OUT_MEM takes an access of every width (R85). -/
theorem accessOk_outMem {off a : Nat} {width : Width} (ht : targetOf off = .memory .outMem a)
    (ha : off % width.bytes = 0) : accessOk off width = true := by
  simp [accessOk, ht, ha, Target.accepts]

theorem State.hostMemWrite_outMem (s : State) (a n : Nat) (d : Word32) : s.hostMemWrite .outMem a n d = s := by
  simp [State.hostMemWrite]

/-- Settles O49: alignment is all that R85 asks at OUT_MEM, and the write accepted there is dropped. -/
theorem hostCannotWriteOutMem : Obligations.HostCannotWriteOutMem := by
  intro s addr d width a ht ha
  rw [State.hostWrite_memory ht (accessOk_outMem ht ha), State.hostMemWrite_outMem]
  rfl

/-! ## Reads while busy (R88) -/

/-- STATUS as a string of bits, the lowest outermost (R34). -/
theorem State.statusWith_eq_bits (s : State) (imgValid outValid : Bool) :
    s.statusWith imgValid outValid =
      BitVec.ofNat 32 (Nat.bit s.busy (Nat.bit s.done (Nat.bit s.err
        (Nat.bit imgValid (Nat.bit outValid (Nat.bit s.idxErr 0)))))) := by
  simp only [State.statusWith, Nat.bit_val]
  congr 1
  omega

/-- The bits of STATUS, each where R34 places it. -/
theorem State.statusWith_getLsbD (s : State) (imgValid outValid : Bool) :
    (s.statusWith imgValid outValid).getLsbD 0 = s.busy ∧ (s.statusWith imgValid outValid).getLsbD 1 = s.done ∧
      (s.statusWith imgValid outValid).getLsbD 2 = s.err ∧ (s.statusWith imgValid outValid).getLsbD 3 = imgValid ∧
      (s.statusWith imgValid outValid).getLsbD 4 = outValid ∧
      (s.statusWith imgValid outValid).getLsbD 5 = s.idxErr := by
  simp only [State.statusWith_eq_bits, BitVec.getLsbD_ofNat, Nat.testBit_bit_succ, Nat.testBit_bit_zero,
    Nat.reduceLT, decide_true, Bool.true_and, and_self]

/-- STATUS has six bits; above them it reads 0 (R34). -/
theorem State.statusWith_getLsbD_high (s : State) (imgValid outValid : Bool) {k : Nat} (hk : 6 ≤ k) :
    (s.statusWith imgValid outValid).getLsbD k = false := by
  obtain ⟨j, rfl⟩ := Nat.exists_eq_add_of_le' hk
  simp [State.statusWith_eq_bits, BitVec.getLsbD_ofNat, Nat.testBit_bit_succ]

section
variable {s : State}

theorem State.readUnlessBusy_of_busy (hb : s.busy = true) (v : Word32) :
    s.readUnlessBusy v = (Config.unspecifiedWord s.draws, s.drawn) := by
  simp only [State.readUnlessBusy, hb, if_true]

/-- The registers whose value R88 leaves open while busy read a free value (log 11). -/
theorem State.readReg_unspecified_of_busy (hb : s.busy = true) :
    ∀ r ∈ [Reg.cp, .outLen, .imgWidth, .imgHeight],
      s.readReg r = (Config.unspecifiedWord s.draws, s.drawn) := by
  simp only [List.forall_mem_cons, State.readReg, State.readUnlessBusy_of_busy hb, List.not_mem_nil, true_and,
    false_implies, implies_true]

theorem State.readReg_status_of_busy (hb : s.busy = true) :
    s.readReg .status = (s.statusBusy (Config.unspecifiedWord s.draws), s.drawn) := by
  simp only [State.readReg, State.readStatus, hb, if_true]

theorem State.readReg_pixData_of_busy (hb : s.busy = true) : s.readReg .pixData = (0, s) := by
  simp only [State.readReg, State.readPixData, hb, if_true]

theorem State.hostMemRead_of_busy (hb : s.busy = true) (space : Space) (a n : Nat) :
    s.hostMemRead space a n = 0 := by
  simp only [State.hostMemRead, hb, if_true]

theorem State.phase_ne_idle_of_busy (hb : s.busy = true) : s.phase ≠ .idle := by
  simpa [State.busy] using hb

/-- A good busy state shows no error: START cleared the error registers, and only the end of a run sets them (R88). -/
theorem Safe.errorRegisters_of_busy (hs : Safe s) (hb : s.busy = true) : s.errCode = 0 ∧ s.errCmd = 0 :=
  hs.noError (hs.busyClear (State.phase_ne_idle_of_busy hb)).2

/-- STATUS as a good busy state answers it (R88). -/
theorem Safe.readStatus_of_busy (hs : Safe s) (hb : s.busy = true) :
    (s.readReg .status).1.getLsbD 0 = true ∧ (s.readReg .status).1.getLsbD 1 = false ∧
      (s.readReg .status).1.getLsbD 2 = false ∧ (s.readReg .status).1.getLsbD 5 = s.idxErr ∧
      (∀ k, 6 ≤ k → (s.readReg .status).1.getLsbD k = false) ∧ (s.readReg .status).2 = s.drawn := by
  obtain ⟨hdone, herr⟩ := hs.busyClear (State.phase_ne_idle_of_busy hb)
  rw [State.readReg_status_of_busy hb]
  obtain ⟨h0, h1, h2, -, -, h5⟩ := s.statusWith_getLsbD
    ((Config.unspecifiedWord s.draws).getLsbD 3) ((Config.unspecifiedWord s.draws).getLsbD 4)
  exact ⟨h0.trans hb, h1.trans hdone, h2.trans herr, h5, fun _ hk => s.statusWith_getLsbD_high _ _ hk, rfl⟩

end

/-- Settles O52: DONE, ERR and the error registers are 0 by `Safe`, the current values are read as they stand, and
the rest is R88's column of `readReg` and of `hostMemRead`. -/
theorem busyReads : Obligations.BusyReads := by
  intro s hs hb
  obtain ⟨hcode, hcmd⟩ := hs.errorRegisters_of_busy hb
  have herrCode : s.readReg .errCode = (0, s) := by simp [State.readReg, hcode]
  have herrCmd : s.readReg .errCmd = (0, s) := by simp only [State.readReg, hcmd]
  refine ⟨hs.readStatus_of_busy hb, herrCode, herrCmd, State.readReg_pixData_of_busy hb, rfl, rfl, rfl, rfl, rfl, rfl,
    rfl, rfl, rfl, rfl, rfl, rfl, rfl, rfl, State.readReg_unspecified_of_busy hb, ?_⟩
  intro addr width space a ht hok
  rw [State.hostRead_memory ht hok, State.hostMemRead_of_busy hb]
  rfl

end Sys2Proof.Machine

/-! Proofs of the statements about the encoding (R110-R120) and about the step of one command slot (R116, R271). -/

namespace Sys2Proof

/-! ## A word and its fields (R111) -/

/-- Equal fields have equal bits. -/
theorem getLsbD_eq_of_field_eq {n start len k : Nat} {v w : BitVec n}
    (h : v.extractLsb' start len = w.extractLsb' start len) (hs : start ≤ k) (hk : k < start + len) :
    v.getLsbD k = w.getLsbD k := by
  obtain ⟨j, rfl⟩ := Nat.exists_eq_add_of_le hs
  have hj : j < len := Nat.lt_of_add_lt_add_left hk
  simpa only [BitVec.getLsbD_extractLsb', hj, decide_true, Bool.true_and] using congrArg (BitVec.getLsbD · j) h

/-- The five fields of R111 make up the whole word. -/
theorem word_eq_of_fields {v w : Word64} (hopc : opcField v = opcField w) (hrsv0 : rsv0Field v = rsv0Field w)
    (ha : aField v = aField w) (hb : bField v = bField w) (hrsv1 : rsv1Field v = rsv1Field w) : v = w := by
  refine BitVec.eq_of_getLsbD_eq fun k hk => ?_
  rcases Nat.lt_or_ge k 8 with h8 | h8
  · exact getLsbD_eq_of_field_eq hopc (Nat.zero_le k) h8
  rcases Nat.lt_or_ge k 16 with h16 | h16
  · exact getLsbD_eq_of_field_eq hrsv0 h8 h16
  rcases Nat.lt_or_ge k 32 with h32 | h32
  · exact getLsbD_eq_of_field_eq ha h16 h32
  rcases Nat.lt_or_ge k 48 with h48 | h48
  · exact getLsbD_eq_of_field_eq hb h32 h48
  · exact getLsbD_eq_of_field_eq hrsv1 h48 hk

/-- A word whose reserved fields are 0 is packed from its other three. -/
theorem packC64_fields {w : Word64} (h0 : rsv0Field w = 0) (h1 : rsv1Field w = 0) :
    packC64 (opcField w) (aField w) (bField w) = w :=
  word_eq_of_fields (opcField_packC64 _ _ _) ((rsv0Field_packC64 _ _ _).trans h0.symm) (aField_packC64 _ _ _)
    (bField_packC64 _ _ _) ((rsv1Field_packC64 _ _ _).trans h1.symm)

/-- A field that a mask covers is the same in the masked word. -/
theorem field_of_masked {n start len : Nat} {w m v : BitVec n} (h : w &&& m = v)
    (hm : m.extractLsb' start len = BitVec.allOnes len) : w.extractLsb' start len = v.extractLsb' start len := by
  rw [← h, BitVec.extractLsb'_and, hm, BitVec.and_allOnes]

/-! ## Operands and their fields (R113) -/

theorem inU16_iff (v : Nat) : inU16 v = true ↔ v ≤ 65535 := decide_eq_true_iff

theorem inI16_iff (t : Int) : inI16 t = true ↔ -32768 ≤ t ∧ t ≤ 32767 := by
  simp only [inI16, Bool.and_eq_true, decide_eq_true_eq]

theorem inU16_toNat (a : Word16) : inU16 a.toNat = true :=
  (inU16_iff _).2 (Nat.le_of_lt_succ a.isLt)

theorem inI16_toInt (a : Word16) : inI16 a.toInt = true :=
  (inI16_iff _).2 ⟨a.le_toInt, Int.le_of_lt_add_one a.toInt_lt⟩

theorem ofNat_toNat_self {n : Nat} (x : BitVec n) : BitVec.ofNat n x.toNat = x :=
  (BitVec.ofNat_toNat n x).trans (BitVec.setWidth_eq x)

theorem toNat_ofNat_of_inU16 {v : Nat} (h : inU16 v = true) : (BitVec.ofNat 16 v).toNat = v :=
  (BitVec.toNat_ofNat v 16).trans (Nat.mod_eq_of_lt (Nat.lt_succ_of_le ((inU16_iff v).1 h)))

theorem toInt_ofInt_of_inI16 {t : Int} (h : inI16 t = true) : (BitVec.ofInt 16 t).toInt = t := by
  obtain ⟨hlo, hhi⟩ := (inI16_iff t).1 h
  exact BitVec.toInt_ofInt_eq_self (by decide) hlo (Int.lt_add_one_of_le hhi)

/-! ## Which fields an operand form accepts (R113, R116) -/

section
variable {a b : Word16} {i j : Instr}

theorem noOperands_eq_ok_iff : noOperands a b i = .ok j ↔ (a = 0 ∧ b = 0) ∧ i = j := by
  unfold noOperands
  split_ifs with h <;> simp only [h, true_and, false_and, Except.ok.injEq]

theorem operandA_eq_ok_iff : operandA b i = .ok j ↔ b = 0 ∧ i = j := by
  unfold operandA
  split_ifs with h <;> simp only [h, true_and, false_and, Except.ok.injEq]

theorem noOperands_error_iff : (∃ d, noOperands a b i = .error d) ↔ a ≠ 0 ∨ b ≠ 0 := by
  unfold noOperands
  split_ifs with h
  · exact iff_of_false (fun ⟨_, hd⟩ => nomatch hd) (fun hne => hne.elim (· h.1) (· h.2))
  · exact iff_of_true ⟨_, rfl⟩ (not_and_or.1 h)

theorem operandA_error_iff : (∃ d, operandA b i = .error d) ↔ b ≠ 0 := by
  unfold operandA
  split_ifs with h
  · exact iff_of_false (fun ⟨_, hd⟩ => nomatch hd) (· h)
  · exact iff_of_true ⟨_, rfl⟩ h

end

/-! ## The decoder on the fields of a word (R114, R117) -/

theorem decodeWord_of_reserved_zero {w : Word64} (h0 : rsv0Field w = 0) (h1 : rsv1Field w = 0) :
    decodeWord w = decodeFields (opcField w) (aField w) (bField w) := by
  rw [decodeWord, if_neg (not_not.2 h0), if_neg (not_not.2 h1)]

theorem decodeWord_packC64 (o : Byte) (a b : Word16) : decodeWord (packC64 o a b) = decodeFields o a b := by
  rw [decodeWord_of_reserved_zero (rsv0Field_packC64 o a b) (rsv1Field_packC64 o a b), opcField_packC64,
    aField_packC64, bField_packC64]

/-- A word that decodes has its reserved fields 0 and decodes by the other three. -/
theorem decodeFields_of_decodeWord {w : Word64} {i : Instr} (h : decodeWord w = .ok i) :
    rsv0Field w = 0 ∧ rsv1Field w = 0 ∧ decodeFields (opcField w) (aField w) (bField w) = .ok i := by
  rcases decodeWord_cases w with ⟨-, hd⟩ | ⟨-, -, hd⟩ | ⟨h0, h1, hd⟩ <;> rw [hd] at h
  · cases h
  · cases h
  · exact ⟨h0, h1, h⟩

/-- The opcodes of R114. -/
def opcodes : List Nat := [0x01, 0x02, 0x03, 0x10, 0x11, 0x12, 0x13, 0x20, 0x21, 0x22, 0x23, 0x24, 0x25]

/-- The opcodes whose commands name neither A nor B (R113). -/
def bareOpcodes : List Nat := [0x01, 0x02, 0x10, 0x11, 0x20, 0x21, 0x24]

/-- The opcodes whose commands name A only (R113). -/
def opcodesNamingA : List Nat := [0x12, 0x13, 0x22, 0x23]

/-- The opcodes whose commands name both A and B (R113). -/
def opcodesNamingAB : List Nat := [0x03, 0x25]

theorem bareOpcodes_class : ∀ n ∈ bareOpcodes, n ∈ opcodes ∧ n ∉ opcodesNamingA := by decide

theorem opcodesNamingA_class : ∀ n ∈ opcodesNamingA, n ∈ opcodes ∧ n ∉ bareOpcodes := by decide

theorem opcodesNamingAB_class : ∀ n ∈ opcodesNamingAB, n ∈ opcodes ∧ n ∉ bareOpcodes ∧ n ∉ opcodesNamingA := by decide

/-- Everything `decodeFields` can do: refuse an opcode outside the map, or accept in the opcode's operand form a
well-formed command, whose word has these fields (R113, R114). -/
theorem decodeFields_cases (o : Byte) (a b : Word16) :
    (o.toNat ∉ opcodes ∧ decodeFields o a b = .error .unassignedOpcode) ∨
      (o.toNat ∈ opcodesNamingAB ∧ ∃ i, decodeFields o a b = .ok i ∧ i.wellFormed = true ∧ encode i = packC64 o a b) ∨
      (o.toNat ∈ opcodesNamingA ∧
        ∃ i, decodeFields o a b = operandA b i ∧ i.wellFormed = true ∧ encode i = packC64 o a 0) ∨
      (o.toNat ∈ bareOpcodes ∧
        ∃ i, decodeFields o a b = noOperands a b i ∧ i.wellFormed = true ∧ encode i = packC64 o 0 0) := by
  have ho : BitVec.ofNat 8 o.toNat = o := ofNat_toNat_self o
  generalize hd : decodeFields o a b = r
  unfold decodeFields at hd
  generalize o.toNat = n at hd ho ⊢
  split at hd <;> subst ho hd
  -- CREATE and CROP, then EDGE, then the other three that name A, then no opcode; the rest name no field.
  case h_3 | h_13 =>
    exact .inr (.inl ⟨by decide, _, rfl, Bool.and_eq_true_iff.2 ⟨inU16_toNat a, inU16_toNat b⟩,
      congrArg₂ (packC64 _) (ofNat_toNat_self a) (ofNat_toNat_self b)⟩)
  case h_6 =>
    exact .inr (.inr (.inl ⟨by decide, _, rfl, inI16_toInt a, congrArg (packC64 _ · 0) BitVec.ofInt_toInt⟩))
  case h_7 | h_10 | h_11 =>
    exact .inr (.inr (.inl ⟨by decide, _, rfl, inU16_toNat a, congrArg (packC64 _ · 0) (ofNat_toNat_self a)⟩))
  case h_14 =>
    refine .inl ⟨?_, rfl⟩
    simp only [opcodes, List.mem_cons, List.not_mem_nil, or_false, not_or]
    and_intros <;> assumption
  all_goals exact .inr (.inr (.inr ⟨by decide, _, rfl, rfl, rfl⟩))

/-- Fields that decode are those of a well-formed command's word. -/
theorem encode_of_decodeFields {o : Byte} {a b : Word16} {i : Instr} (h : decodeFields o a b = .ok i) :
    i.wellFormed = true ∧ encode i = packC64 o a b := by
  rcases decodeFields_cases o a b with ⟨-, hd⟩ | ⟨-, j, hd, hj⟩ | ⟨-, j, hd, hj⟩ | ⟨-, j, hd, hj⟩ <;> rw [hd] at h
  · cases h
  · obtain rfl := Except.ok.inj h
    exact hj
  · obtain ⟨rfl, rfl⟩ := operandA_eq_ok_iff.1 h
    exact hj
  · obtain ⟨⟨rfl, rfl⟩, rfl⟩ := noOperands_eq_ok_iff.1 h
    exact hj

/-- Which fields decode to no command. -/
theorem decodeFields_error_iff (o : Byte) (a b : Word16) :
    (∃ d, decodeFields o a b = .error d) ↔
      o.toNat ∉ opcodes ∨ (o.toNat ∈ bareOpcodes ∧ (a ≠ 0 ∨ b ≠ 0)) ∨ (o.toNat ∈ opcodesNamingA ∧ b ≠ 0) := by
  rcases decodeFields_cases o a b with ⟨ho, hd⟩ | ⟨ho, i, hd, -⟩ | ⟨ho, i, hd, -⟩ | ⟨ho, i, hd, -⟩ <;> rw [hd]
  · exact iff_of_true ⟨_, rfl⟩ (.inl ho)
  · obtain ⟨hopc, hbare, hA⟩ := opcodesNamingAB_class _ ho
    simp only [hopc, hbare, hA, reduceCtorEq, exists_false, not_true_eq_false, false_and, or_false]
  · obtain ⟨hopc, hbare⟩ := opcodesNamingA_class _ ho
    simp only [operandA_error_iff, ho, hopc, hbare, not_true_eq_false, false_and, true_and, false_or]
  · obtain ⟨hopc, hA⟩ := bareOpcodes_class _ ho
    simp only [noOperands_error_iff, ho, hopc, hA, not_true_eq_false, false_and, true_and, false_or, or_false]

/-! ## Round trips (R117) -/

theorem decodeWord_encode {i : Instr} (h : i.wellFormed = true) : decodeWord (encode i) = .ok i := by
  cases i with
  | create w h' | crop w h' =>
    obtain ⟨hw, hh⟩ := Bool.and_eq_true_iff.1 h
    exact (decodeWord_packC64 _ _ _).trans
      (congrArg Except.ok (congrArg₂ _ (toNat_ofNat_of_inU16 hw) (toNat_ofNat_of_inU16 hh)))
  | edge t => exact (decodeWord_packC64 _ _ _).trans (congrArg (Except.ok <| Instr.edge ·) (toInt_ofInt_of_inI16 h))
  | blur v => exact (decodeWord_packC64 _ _ _).trans (congrArg (Except.ok <| Instr.blur ·) (toNat_ofNat_of_inU16 h))
  | median v => exact (decodeWord_packC64 _ _ _).trans (congrArg (Except.ok <| Instr.median ·) (toNat_ofNat_of_inU16 h))
  | gamma v => exact (decodeWord_packC64 _ _ _).trans (congrArg (Except.ok <| Instr.gamma ·) (toNat_ofNat_of_inU16 h))
  | _ => exact decodeWord_packC64 _ _ _

/-- Settles O1: the packed fields read back as packed, and an operand in its range survives its 16-bit field. -/
theorem decodeOfEncodeIsIdentity : Obligations.DecodeOfEncodeIsIdentity := fun _ h =>
  ⟨decodeWord_encode h, (decodeBytes_leBytes _).trans (decodeWord_encode h)⟩

/-- Settles O2: the fields that decode are packed again into the word they came from. -/
theorem decodedWordIsItsEncoding : Obligations.DecodedWordIsItsEncoding := by
  intro w i h
  obtain ⟨h0, h1, hf⟩ := decodeFields_of_decodeWord h
  obtain ⟨hwf, henc⟩ := encode_of_decodeFields hf
  exact ⟨hwf, henc.trans (packC64_fields h0 h1)⟩

/-! ## Rows (R115) -/

theorem encode_matches_row (i : Instr) : encode i &&& rowMask i = rowMatch i := by
  cases i with
  | create w h => exact Laws.EncodeMatchesRow.create w h
  | crop w h => exact Laws.EncodeMatchesRow.crop w h
  | edge t => exact Laws.EncodeMatchesRow.edge t
  | blur v => exact Laws.EncodeMatchesRow.blur v
  | median v => exact Laws.EncodeMatchesRow.median v
  | gamma v => exact Laws.EncodeMatchesRow.gamma v
  | _ => rfl

/-- Each row of R115: its match value is an opcode alone, and its mask leaves out the fields that the opcode names. -/
theorem row_cases (i : Instr) : ∃ o : Byte, rowMatch i = packC64 o 0 0 ∧
    ((o.toNat ∈ opcodesNamingAB ∧ rowMask i = 0xFFFF00000000FFFF) ∨
      (o.toNat ∈ opcodesNamingA ∧ rowMask i = 0xFFFFFFFF0000FFFF) ∨
      (o.toNat ∈ bareOpcodes ∧ rowMask i = 0xFFFFFFFFFFFFFFFF)) := by
  cases i with
  | create => exact ⟨0x03, rfl, .inl ⟨by decide, rfl⟩⟩
  | crop => exact ⟨0x25, rfl, .inl ⟨by decide, rfl⟩⟩
  | edge => exact ⟨0x12, rfl, .inr (.inl ⟨by decide, rfl⟩)⟩
  | blur => exact ⟨0x13, rfl, .inr (.inl ⟨by decide, rfl⟩)⟩
  | median => exact ⟨0x22, rfl, .inr (.inl ⟨by decide, rfl⟩)⟩
  | gamma => exact ⟨0x23, rfl, .inr (.inl ⟨by decide, rfl⟩)⟩
  | decode => exact ⟨0x01, rfl, .inr (.inr ⟨by decide, rfl⟩)⟩
  | encode => exact ⟨0x02, rfl, .inr (.inr ⟨by decide, rfl⟩)⟩
  | conv => exact ⟨0x10, rfl, .inr (.inr ⟨by decide, rfl⟩)⟩
  | sharpen => exact ⟨0x11, rfl, .inr (.inr ⟨by decide, rfl⟩)⟩
  | gray => exact ⟨0x20, rfl, .inr (.inr ⟨by decide, rfl⟩)⟩
  | neg => exact ⟨0x21, rfl, .inr (.inr ⟨by decide, rfl⟩)⟩
  | histeq => exact ⟨0x24, rfl, .inr (.inr ⟨by decide, rfl⟩)⟩

/-- A word that matches a row has the row's opcode, no reserved bit set, and 0 where the opcode names no field. -/
theorem fields_of_matches {w : Word64} {i : Instr} (h : w &&& rowMask i = rowMatch i) :
    rowMatch i = packC64 (opcField w) 0 0 ∧ rsv0Field w = 0 ∧ rsv1Field w = 0 ∧
      ((opcField w).toNat ∈ opcodesNamingAB ∨ ((opcField w).toNat ∈ opcodesNamingA ∧ bField w = 0) ∨
        ((opcField w).toNat ∈ bareOpcodes ∧ aField w = 0 ∧ bField w = 0)) := by
  obtain ⟨o, hmatch, hrow⟩ := row_cases i
  rw [hmatch] at h ⊢
  have hcovered : opcField (rowMask i) = BitVec.allOnes 8 ∧ rsv0Field (rowMask i) = BitVec.allOnes 8 ∧
      rsv1Field (rowMask i) = BitVec.allOnes 16 := by
    rcases hrow with ⟨-, hmask⟩ | ⟨-, hmask⟩ | ⟨-, hmask⟩ <;> rw [hmask] <;> decide
  obtain ⟨hopc, hrsv0, hrsv1⟩ := hcovered
  obtain rfl : opcField w = o := (field_of_masked h hopc).trans (opcField_packC64 o 0 0)
  refine ⟨rfl, (field_of_masked h hrsv0).trans (rsv0Field_packC64 _ _ _),
    (field_of_masked h hrsv1).trans (rsv1Field_packC64 _ _ _), ?_⟩
  have ha (hm : aField (rowMask i) = BitVec.allOnes 16) : aField w = 0 :=
    (field_of_masked h hm).trans (aField_packC64 _ _ _)
  have hb (hm : bField (rowMask i) = BitVec.allOnes 16) : bField w = 0 :=
    (field_of_masked h hm).trans (bField_packC64 _ _ _)
  rcases hrow with ⟨ho, -⟩ | ⟨ho, hmask⟩ | ⟨ho, hmask⟩
  · exact .inl ho
  · exact .inr (.inl ⟨ho, hb (by rw [hmask]; decide)⟩)
  · exact .inr (.inr ⟨ho, ha (by rw [hmask]; decide), hb (by rw [hmask]; decide)⟩)

theorem rowMatch_unique {w : Word64} {i j : Instr} (hi : w &&& rowMask i = rowMatch i)
    (hj : w &&& rowMask j = rowMatch j) : rowMatch i = rowMatch j :=
  (fields_of_matches hi).1.trans (fields_of_matches hj).1.symm

theorem matches_of_decodeWord {w : Word64} {i : Instr} (h : decodeWord w = .ok i) : w &&& rowMask i = rowMatch i := by
  obtain ⟨-, rfl⟩ := decodedWordIsItsEncoding w i h
  exact encode_matches_row i

/-- A word that matches a row decodes: the row's opcode is assigned and the fields it does not name are 0. -/
theorem decodes_of_matches {w : Word64} {j : Instr} (h : w &&& rowMask j = rowMatch j) :
    ∃ i, decodeWord w = .ok i := by
  obtain ⟨-, h0, h1, hfields⟩ := fields_of_matches h
  rw [decodeWord_of_reserved_zero h0 h1]
  cases hd : decodeFields (opcField w) (aField w) (bField w) with
  | ok i => exact ⟨i, rfl⟩
  | error d =>
    rcases hfields with ho | ⟨ho, hb⟩ | ⟨ho, ha, hb⟩
    · exact absurd ((decodeFields_error_iff _ _ _).1 ⟨d, hd⟩) (by simp [opcodesNamingAB_class _ ho])
    · exact absurd ((decodeFields_error_iff _ _ _).1 ⟨d, hd⟩) (by simp [opcodesNamingA_class _ ho, hb])
    · exact absurd ((decodeFields_error_iff _ _ _).1 ⟨d, hd⟩) (by simp [bareOpcodes_class _ ho, ha, hb])

/-- Settles O3: what a word decodes to encodes to it and so matches, and a word's opcode leaves it one row to match. -/
theorem wordsMatchTheirRow : Obligations.WordsMatchTheirRow := by
  refine ⟨fun w i => matches_of_decodeWord, fun w j h => ?_, fun w i j => rowMatch_unique, ?_, ?_, ?_,
    fun _ _ _ _ => rfl⟩
  · obtain ⟨i, hi⟩ := decodes_of_matches h
    exact ⟨i, hi, rowMatch_unique (matches_of_decodeWord hi) h⟩
  all_goals simp only [List.forall_mem_cons, List.not_mem_nil, false_implies, implies_true, and_true]
  · exact ⟨rfl, rfl, rfl, rfl, rfl, rfl, rfl⟩
  · exact fun _ _ => ⟨rfl, rfl, rfl, rfl⟩
  · exact fun _ _ => ⟨rfl, rfl⟩

/-- Settles O4: a reserved field is refused first, and then the opcode says which of A and B must be 0. -/
theorem illegalWordsAreExactlyThese : Obligations.IllegalWordsAreExactlyThese := by
  intro w
  rcases decodeWord_cases w with ⟨h0, hd⟩ | ⟨-, h1, hd⟩ | ⟨h0, h1, hd⟩ <;> rw [hd]
  · exact iff_of_true ⟨_, rfl⟩ (.inr (.inl h0))
  · exact iff_of_true ⟨_, rfl⟩ (.inr (.inr (.inl h1)))
  · simp only [h0, h1, ne_eq, not_true_eq_false, false_or]
    exact decodeFields_error_iff _ _ _

/-- Settles O5: each word is evaluated. -/
theorem sampleWordsDecode : Obligations.SampleWordsDecode :=
  ⟨rfl, rfl, rfl, rfl, rfl, rfl, rfl, rfl, rfl, rfl, rfl, rfl, rfl, rfl⟩

end Sys2Proof

namespace Sys2Proof.Machine

/-! ## The step of the slot CP names (R112, R116, R271) -/

section
variable {s : State}

theorem runSlot_of_ok {i : Instr} (hc : s.cp.toNat < s.params.cmdCap) (h : s.slotCommand s.cp.toNat = .ok i) :
    runSlot s = exec i s := by
  rcases runSlot_cases s with ⟨hge, -⟩ | ⟨-, ⟨d, hd⟩, -⟩ | ⟨-, j, hj, hr⟩
  · exact absurd hc (Nat.not_lt.2 hge)
  · cases h.symm.trans hd
  · obtain rfl := Except.ok.inj (h.symm.trans hj)
    exact hr

theorem runSlot_of_error {d : DecodeError} (hc : s.cp.toNat < s.params.cmdCap)
    (h : s.slotCommand s.cp.toNat = .error d) : runSlot s = .next (s.endWithError .illegalCommand s.cp) := by
  rcases runSlot_cases s with ⟨hge, -⟩ | ⟨-, -, hr⟩ | ⟨-, j, hj, -⟩
  · exact absurd hc (Nat.not_lt.2 hge)
  · exact hr
  · cases h.symm.trans hj

/-- A busy block whose list fits CMD_MEM and is not at its end moves by the slot CP names, in both phases. -/
theorem engineMove_eq_runSlot (hp : s.phase ≠ .idle) (hl : s.cmdLen.toNat ≤ s.params.cmdCap)
    (hc : s.cp.toNat < s.cmdLen.toNat) : engineMove s = runSlot s := by
  rcases engineMove_cases s with
    ⟨hi, -⟩ | ⟨-, hlong, -⟩ | ⟨-, -, -, hm⟩ | ⟨-, -, hend, -⟩ | ⟨-, -, hm⟩ | ⟨-, hend, -⟩
  · exact absurd hi hp
  · exact absurd hl (Nat.not_le.2 hlong)
  · exact hm
  · exact absurd hc (Nat.not_lt.2 hend)
  · exact hm
  · exact absurd hc (Nat.not_lt.2 hend)

/-- An engine move that is due as an event is made on the state without that event (log 6). -/
theorem step_of_engine_event {es : List Event} (h : s.events = .engine :: es) :
    step s = engineMove { s with events := es } := by
  rcases step_cases s with ⟨hnil, -⟩ | ⟨e, es', he, hs⟩
  · cases hnil.symm.trans h
  · obtain ⟨rfl, rfl⟩ := List.cons.inj (he.symm.trans h)
    exact hs

theorem engineMove_eq_exec {i : Instr} (hp : s.phase ≠ .idle) (hl : s.cmdLen.toNat ≤ s.params.cmdCap)
    (hc : s.cp.toNat < s.cmdLen.toNat) (h : s.slotCommand s.cp.toNat = .ok i) : engineMove s = exec i s :=
  (engineMove_eq_runSlot hp hl hc).trans (runSlot_of_ok (Nat.lt_of_lt_of_le hc hl) h)

end

/-- Settles O6: with no event due or with its own event due, the engine moves, and its move is the slot's command. -/
theorem stepRunsDecodedCommand : Obligations.StepRunsDecodedCommand := by
  intro s i hp hl hc h
  constructor
  · intro he
    exact (step_of_no_events he).trans (engineMove_eq_exec hp hl hc h)
  · intro es he
    exact (step_of_engine_event he).trans (engineMove_eq_exec (s := { s with events := es }) hp hl hc h)

/-- Settles O7: the fields are those `endWithError` gives, with the code of R301. -/
theorem illegalWordEndsValidation : Obligations.IllegalWordEndsValidation := by
  intro s d he hp hl hc h
  have hbusy : s.phase ≠ .idle := fun hi => nomatch hp.symm.trans hi
  have hstep : step s = .next (s.endWithError .illegalCommand s.cp) := calc
    step s = engineMove s := step_of_no_events he
    _ = runSlot s := engineMove_eq_runSlot hbusy hl hc
    _ = .next (s.endWithError .illegalCommand s.cp) := runSlot_of_error (Nat.lt_of_lt_of_le hc hl) h
  exact ⟨_, hstep, rfl, rfl, rfl, rfl, rfl, rfl, rfl, rfl⟩

end Sys2Proof.Machine

/-! Proofs of the statements about the pixel buffer: CREATE (R146), the pixel port (R147, R148, R309), IDX_ERR (R149)
and what a command other than ENCODE leaves unchanged (R142, R173, R274). -/

namespace Sys2Proof.Machine

/-! ## CREATE (R146) -/

/-- Settles O14: the check passes, and the body's `newImage` is black everywhere. -/
theorem createMakesBlackImage : Obligations.CreateMakesBlackImage := by
  intro s w h hp hw hh hmaxW hmaxH hmaxP
  have hcheck : staticCheck (.create w h) s = none :=
    (if_neg (by omega)).trans (if_pos (Params.holds_iff.2 ⟨hmaxW, hmaxH, hmaxP⟩))
  have hexecute : s.phase ≠ .validate := fun hv => nomatch hp.symm.trans hv
  refine ⟨newImage w h fun _ _ => Pixel.black, ?_, newImage_wf _ hw hh, rfl, rfl, fun x y hx hy => newImage_px _ hx hy⟩
  rw [exec_eq_command, hcheck]
  exact State.command_ok hexecute

/-! ## What every command but ENCODE leaves unchanged (R142, R173, R274, R306) -/

/-- Everything a command can answer, in either phase: the run ended with an error, CP moved on, or CP moved on from
what the execution left. -/
theorem exec_next_cases {s t : State} {i : Instr} (h : exec i s = .next t) :
    (∃ e, t = s.endWithError e s.cp) ∨ t = s.advance ∨ ∃ u, executeCommand i s = .ok u ∧ t = u.advance := by
  rcases exec_cases i s with ⟨e, -, he⟩ | ⟨-, -, he⟩ | ⟨-, -, e, -, he⟩ | ⟨-, -, u, hu, he⟩ <;>
    obtain rfl := Host.Outcome.next.inj (h.symm.trans he)
  · exact .inl ⟨e, rfl⟩
  · exact .inr (.inl rfl)
  · exact .inl ⟨e, rfl⟩
  · exact .inr (.inr ⟨u, hu, rfl⟩)

/-- What a completed execution other than ENCODE's has changed: the image, and the hidden tables of the one command
that fills them (R142, R217, R248, R255). -/
theorem executeCommand_ok_tables {s t : State} {i : Instr} (hi : i ≠ .encode) (h : executeCommand i s = .ok t) :
    t = { s with
      img := t.img, gammaLut := t.gammaLut, hist := t.hist, cdf := t.cdf, heqLut := t.heqLut, gw := t.gw } ∧
      ((∀ g, i ≠ .gamma g) → t.gammaLut = s.gammaLut) ∧
      (i ≠ .histeq → t.hist = s.hist ∧ t.cdf = s.cdf ∧ t.heqLut = s.heqLut) ∧
      ((∀ sigma, i ≠ .blur sigma) → t.gw = s.gw) := by
  cases i with
  | encode => exact absurd rfl hi
  | decode =>
    rcases bodyDecode_cases s with ⟨e, -, he⟩ | ⟨I, -, he⟩ <;> cases he.symm.trans h
    exact ⟨rfl, fun _ => rfl, fun _ => ⟨rfl, rfl, rfl⟩, fun _ => rfl⟩
  | create =>
    cases h
    exact ⟨rfl, fun _ => rfl, fun _ => ⟨rfl, rfl, rfl⟩, fun _ => rfl⟩
  | blur sigma =>
    rcases bodyBlur_cases sigma s with ⟨-, he⟩ | ⟨I, -, he⟩ <;> cases he.symm.trans h
    exact ⟨rfl, fun _ => rfl, fun _ => ⟨rfl, rfl, rfl⟩, fun hb => absurd rfl (hb sigma)⟩
  | gamma g =>
    rcases bodyGamma_cases g s with ⟨-, he⟩ | ⟨I, -, he⟩ <;> cases he.symm.trans h
    exact ⟨rfl, fun hg => absurd rfl (hg g), fun _ => ⟨rfl, rfl, rfl⟩, fun _ => rfl⟩
  | histeq =>
    rcases bodyHisteq_cases s with ⟨-, he⟩ | ⟨I, -, -, he⟩ | ⟨I, -, -, he⟩ <;> cases he.symm.trans h
    · exact ⟨rfl, fun _ => rfl, fun hh => absurd rfl hh, fun _ => rfl⟩
    · exact ⟨rfl, fun _ => rfl, fun hh => absurd rfl hh, fun _ => rfl⟩
  | _ =>
    obtain ⟨I, -, rfl⟩ := State.mapImage_ok h
    exact ⟨rfl, fun _ => rfl, fun _ => ⟨rfl, rfl, rfl⟩, fun _ => rfl⟩

/-- Settles O32: an error end writes what R306 lists, and a completed command has changed its own tables, the image and
CP. -/
theorem imageCommandsFrame : Obligations.ImageCommandsFrame := by
  intro s t i hi h
  rcases exec_next_cases h with ⟨e, rfl⟩ | rfl | ⟨u, hu, rfl⟩
  · exact ⟨fun _ _ => rfl, rfl, rfl, rfl, rfl, rfl, rfl, rfl, rfl, rfl, rfl, rfl, rfl, rfl, rfl, rfl, fun _ => rfl,
      fun _ => ⟨rfl, rfl, rfl⟩, fun _ => rfl, .inr ⟨e, rfl⟩⟩
  · exact ⟨fun _ _ => rfl, rfl, rfl, rfl, rfl, rfl, rfl, rfl, rfl, rfl, rfl, rfl, rfl, rfl, rfl, rfl, fun _ => rfl,
      fun _ => ⟨rfl, rfl, rfl⟩, fun _ => rfl, .inl ⟨rfl, rfl, rfl, rfl, rfl, rfl, rfl, rfl⟩⟩
  · obtain ⟨hchanges, hgamma, hhisteq, hblur⟩ := executeCommand_ok_tables hi hu
    rw [hchanges]
    exact ⟨fun _ _ => rfl, rfl, rfl, rfl, rfl, rfl, rfl, rfl, rfl, rfl, rfl, rfl, rfl, rfl, rfl, rfl, hgamma, hhisteq,
      hblur, .inl ⟨rfl, rfl, rfl, rfl, rfl, rfl, rfl, rfl⟩⟩

/-! ## The pixel port (R147, R148, R309) -/

/-- A byte appended below a word is its lowest digit in base 256. -/
theorem toNat_append_byte {n : Nat} (x : BitVec n) (y : Byte) : (x ++ y).toNat = 256 * x.toNat + y.toNat := by
  rw [BitVec.toNat_append, ← Nat.shiftLeft_add_eq_or_of_lt y.isLt, Nat.shiftLeft_eq, Nat.mul_comm]

/-- PIX_DATA as a number (R47). -/
theorem Pixel.word_eq (p : Pixel) :
    p.word = BitVec.ofNat 32 (65536 * p.r.toNat + 256 * p.g.toNat + p.b.toNat) := by
  have hnat : p.word.toNat = 65536 * p.r.toNat + 256 * p.g.toNat + p.b.toNat := by
    rw [Pixel.word, toNat_append_byte, toNat_append_byte, toNat_append_byte, BitVec.toNat_ofNat, Nat.zero_mod]
    omega
  rw [← hnat, ofNat_toNat_self]

/-- `set` replaces the pixel it names and leaves every other as it was (R141). -/
theorem Image.set?_px {I J : Image} {x y : Nat} {p : Pixel} (hI : I.wf) (h : I.set? x y p = some J) :
    J.px x y = p ∧ ∀ x' y', x' ≠ x ∨ y' ≠ y → J.px x' y' = I.px x' y' := by
  rcases I.set?_cases x y p with ⟨hx, hy, he⟩ | ⟨-, he⟩ <;> cases he.symm.trans h
  obtain ⟨-, -, hrows, hlen⟩ := hI
  have hy' : y < I.rows.length := hrows ▸ hy
  have hrow : I.rows.getD y [] = I.rows[y] := List.getD_eq_getElem _ _ hy'
  have hx' : x < (I.rows.getD y []).length := by rwa [hrow, hlen _ (List.getElem_mem hy')]
  simp only [Image.px, List.getD_eq_getElem?_getD] at hx' ⊢
  refine ⟨?_, fun x' y' hne => ?_⟩
  · rw [List.getElem?_set_self hy', Option.getD_some, List.getElem?_set_self hx', Option.getD_some]
  · by_cases hrow' : y' = y
    · subst hrow'
      have hcol : x ≠ x' := (hne.resolve_right (absurd rfl)).symm
      rw [List.getElem?_set_self hy', Option.getD_some, List.getElem?_set_ne hcol]
    · rw [List.getElem?_set_ne (Ne.symm hrow')]

/-- In bounds, PIX_DATA reads the pixel that `get` gives, and a write of it holds the image that `set` gives. -/
theorem State.pixData_of_inBounds {s : State} {I : Image} (hb : s.busy = false) (hI : s.img = some I)
    (hx : s.pixX.toNat < I.w) (hy : s.pixY.toNat < I.h) (v : Word32) :
    s.readReg .pixData = ((I.px s.pixX.toNat s.pixY.toNat).word, s) ∧
      ∃ J, I.set? s.pixX.toNat s.pixY.toNat (Pixel.ofWord v) = some J ∧
        s.writeReg .pixData v = { s with img := some J } := by
  have hget : (s.img.bind fun I => I.get? s.pixX.toNat s.pixY.toNat) = some (I.px s.pixX.toNat s.pixY.toNat) := by
    rw [hI]
    exact if_pos ⟨hx, hy⟩
  refine ⟨by simp only [State.readReg, State.readPixData, hb, hget, Bool.false_eq_true, if_false], ?_⟩
  rcases s.writePixData_cases v with ⟨hbusy, -⟩ | ⟨-, I', J, hI', hset, hw⟩ | ⟨-, hout, -⟩
  · cases hb.symm.trans hbusy
  · obtain rfl := Option.some.inj (hI.symm.trans hI')
    exact ⟨J, hset, hw⟩
  · exact absurd ⟨hx, hy⟩ (hout I hI)

/-- Out of bounds or with no image, PIX_DATA reads 0, drops a write, and sets IDX_ERR (R147, R148, R309). -/
theorem State.pixData_of_outOfBounds {s : State} (hb : s.busy = false)
    (hout : ∀ I, s.img = some I → ¬(s.pixX.toNat < I.w ∧ s.pixY.toNat < I.h)) (v : Word32) :
    s.readReg .pixData = (0, { s with idxErr := true }) ∧ s.writeReg .pixData v = { s with idxErr := true } := by
  have hget : (s.img.bind fun I => I.get? s.pixX.toNat s.pixY.toNat) = none :=
    Option.bind_eq_none_iff.2 fun I hI => if_neg (hout I hI)
  refine ⟨by simp only [State.readReg, State.readPixData, hb, hget, Bool.false_eq_true, if_false], ?_⟩
  rcases s.writePixData_cases v with ⟨hbusy, -⟩ | ⟨-, I, J, hI, hset, -⟩ | ⟨-, -, hw⟩
  · cases hb.symm.trans hbusy
  · have hnone : I.set? s.pixX.toNat s.pixY.toNat (Pixel.ofWord v) = none := if_neg (hout I hI)
    cases hnone.symm.trans hset
  · exact hw

/-- Settles O53: in bounds the port is `get` and `set` of the image, out of bounds both are IndexError. -/
theorem pixelPortAccesses : Obligations.PixelPortAccesses := by
  rintro s v x y hb rfl rfl
  constructor
  · intro I hI hwf hx hy
    obtain ⟨hread, J, hset, hwrite⟩ := State.pixData_of_inBounds hb hI hx hy v
    obtain ⟨hJ, hJw, hJh⟩ := Image.set?_wf hwf hset
    obtain ⟨hsame, hother⟩ := Image.set?_px hwf hset
    exact ⟨by rw [hread, Pixel.word_eq], J, hwrite, hJ, hJw, hJh, hsame, fun x' y' _ _ => hother x' y'⟩
  · intro hout
    exact State.pixData_of_outOfBounds hb hout v

/-! ## IDX_ERR is sticky (R149) -/

theorem runSlot_idxErr {s t : State} (h : runSlot s = .next t) : t.idxErr = s.idxErr := by
  rcases runSlot_cases s with ⟨-, hr⟩ | ⟨-, -, hr⟩ | ⟨-, i, -, hr⟩ <;> rw [hr] at h
  · cases h
  · obtain rfl := Host.Outcome.next.inj h
    rfl
  · rcases exec_next_cases h with ⟨e, rfl⟩ | rfl | ⟨u, hu, rfl⟩
    · rfl
    · rfl
    · obtain ⟨-, -, ⟨-, -, hidx, -⟩, -⟩ := executeCommand_frame hu
      exact hidx

/-- The engine never touches IDX_ERR (R149). -/
theorem engineMove_idxErr {s t : State} (h : engineMove s = .next t) : t.idxErr = s.idxErr := by
  rcases engineMove_cases s with ⟨-, hm⟩ | ⟨-, -, hm⟩ | ⟨-, -, -, hm⟩ | ⟨-, -, -, hm⟩ | ⟨-, -, hm⟩ | ⟨-, -, hm⟩ <;>
    rw [hm] at h
  case inr.inr.inl | inr.inr.inr.inr.inl => exact runSlot_idxErr h
  all_goals
    obtain rfl := Host.Outcome.next.inj h
    rfl

/-- A host read can set IDX_ERR, never clear it (R147). -/
theorem State.hostRead_keeps_idxErr {s : State} (hs : s.idxErr = true) (addr : Word32) (width : Width) :
    (s.hostRead addr width).2.idxErr = true := by
  rcases s.hostRead_state addr width with h | ⟨r, h⟩ <;> rw [h]
  · exact hs
  · rcases s.readReg_state r with hr | ⟨-, hr⟩ | ⟨-, -, hr⟩ <;> rw [hr]
    · exact hs
    · exact hs

/-- The register writes that clear IDX_ERR are those of CTRL with SRESET, or with CLR_IDX while idle (R35, R149). -/
theorem State.writeReg_clears_idxErr {s : State} (hs : s.idxErr = true) {r : Reg} {v : Word32}
    (h : (s.writeReg r v).idxErr = false) :
    r = .ctrl ∧ (v.getLsbD 1 = true ∨ (v.getLsbD 2 = true ∧ s.busy = false)) := by
  cases r with
  | ctrl =>
    replace h : (s.writeCtrl v).idxErr = false := h
    rcases s.writeCtrl_cases v with ⟨hv, -⟩ | ⟨-, -, hw⟩ | ⟨-, hb, hw⟩
    · exact ⟨rfl, .inl hv⟩
    · rw [hw] at h
      cases hs.symm.trans h
    · refine ⟨rfl, .inr ⟨?_, hb⟩⟩
      by_contra hclr
      rw [hw, if_neg hclr] at h
      split at h <;> cases hs.symm.trans h
  | pixData =>
    replace h : (s.writePixData v).idxErr = false := h
    rcases s.writePixData_cases v with ⟨-, hw⟩ | ⟨-, I, J, -, -, hw⟩ | ⟨-, -, hw⟩ <;> rw [hw] at h
    · cases hs.symm.trans h
    · cases hs.symm.trans h
    · cases h
  | cmdLen | inLen | pixX | pixY | kcfg =>
    replace h : (s.writeUnlessBusy _).idxErr = false := h
    rw [State.writeUnlessBusy] at h
    split at h <;> cases hs.symm.trans h
  | _ => cases hs.symm.trans h

/-- CTRL stands at offset 0 alone (R34). -/
theorem regAt_eq_ctrl {off : Nat} (h : regAt off = some .ctrl) : off = 0 := by
  unfold regAt at h
  split at h
  case h_1 => rfl
  all_goals cases h

/-- A register is reached by its own offset. -/
theorem targetOf_registers {off o : Nat} (h : targetOf off = .registers o) : o = off ∧ off < 0x1000 := by
  by_cases hlow : off < 0x1000
  · rw [targetOf, if_pos hlow] at h
    exact ⟨(Target.registers.inj h).symm, hlow⟩
  · rw [targetOf, if_neg hlow] at h
    refine absurd h ?_
    iterate 6 refine iteInduction (motive := (· ≠ Target.registers o)) (fun _ => nofun) fun _ => ?_
    exact nofun

/-- Everything a host write can leave: the state, an access of 32 bits to the register at its offset, or a write of a
memory window (R80, R84, R85). -/
theorem State.hostWrite_cases (s : State) (addr : Word32) (width : Width) (d : Word32) :
    (s.hostWrite addr width d).2 = s ∨
      (∃ r, width = .w32 ∧ regAt (s.params.offset addr) = some r ∧
        (s.hostWrite addr width d).2 = s.writeReg r d) ∨
      (∃ space a, (s.hostWrite addr width d).2 = s.hostMemWrite space a width.bytes d) := by
  by_cases hok : accessOk (s.params.offset addr) width = true
  · cases ht : targetOf (s.params.offset addr) with
    | registers o =>
      obtain ⟨rfl, hlow⟩ := targetOf_registers ht
      have hwidth : width = .w32 := ((accessOk_iff _ _).1 hok).2.resolve_right (by omega)
      cases hr : regAt (s.params.offset addr) with
      | some r => exact .inr (.inl ⟨r, hwidth, rfl, by simp only [State.hostWrite, hok, ht, hr, if_true]⟩)
      | none => exact .inl (by simp only [State.hostWrite, hok, ht, hr, if_true])
    | memory space a => exact .inr (.inr ⟨space, a, congrArg Prod.snd (State.hostWrite_memory ht hok d)⟩)
    | unmapped => exact .inl (by simp only [State.hostWrite, hok, ht, if_true])
  · exact .inl (congrArg Prod.snd (State.hostWrite_rejected (Bool.eq_false_iff.2 hok) d))

/-- The transactions that clear IDX_ERR are the 32-bit writes of CTRL with SRESET, or with CLR_IDX while idle (R149). -/
theorem State.transact_clears_idxErr {s : State} (hs : s.idxErr = true) {req : HostReq}
    (h : (s.transact req).idxErr = false) :
    ∃ addr d, req = .write addr .w32 d ∧ s.params.offset addr = 0 ∧
      (d.getLsbD 1 = true ∨ (d.getLsbD 2 = true ∧ s.busy = false)) := by
  replace h : (s.hostAccess req).2.idxErr = false := h
  cases req with
  | read addr width => cases (State.hostRead_keeps_idxErr hs addr width).symm.trans h
  | write addr width d =>
    rw [State.hostAccess] at h
    rcases s.hostWrite_cases addr width d with hw | ⟨r, rfl, hr, hw⟩ | ⟨space, a, hw⟩ <;> rw [hw] at h
    · cases hs.symm.trans h
    · obtain ⟨rfl, hctrl⟩ := State.writeReg_clears_idxErr hs h
      exact ⟨addr, d, rfl, regAt_eq_ctrl hr, hctrl⟩
    · rcases s.hostMemWrite_cases space a width.bytes d with hm | ⟨-, -, hm⟩ <;> rw [hm] at h
      · cases hs.symm.trans h
      · cases hs.symm.trans ((s.withMem_idxErr _ _).symm.trans h)

/-- Settles O54: the engine keeps IDX_ERR, so what clears it is a reset event or the transaction of the event, which is
made on the state with its event popped. -/
theorem indexErrorIsSticky : Obligations.IndexErrorIsSticky := by
  intro s t hs h ht
  rcases step_cases s with ⟨-, hstep⟩ | ⟨e, es, he, hstep⟩ <;> rw [hstep] at h
  · cases hs.symm.trans ((engineMove_idxErr h).symm.trans ht)
  · refine ⟨e, es, he, ?_⟩
    cases e with
    | hardwareReset => exact .inl rfl
    | powerOn => exact .inr (.inl rfl)
    | engine => cases hs.symm.trans ((engineMove_idxErr h).symm.trans ht)
    | host req =>
      obtain rfl := Host.Outcome.next.inj h
      obtain ⟨addr, d, rfl, hctrl⟩ := State.transact_clears_idxErr (s := { s with events := es }) hs ht
      exact .inr (.inr ⟨addr, d, .inl rfl, hctrl⟩)
    | both req =>
      obtain ⟨addr, d, rfl, hctrl⟩ :=
        State.transact_clears_idxErr (s := { s with events := es }) hs ((engineMove_idxErr h).symm.trans ht)
      exact .inr (.inr ⟨addr, d, .inr rfl, hctrl⟩)

end Sys2Proof.Machine
